-- ==== Sys2Proof/Word.lean ====
section
/-! DEFINITION. The word types of the block and their widths (00_scope.md R7, R8; 30_encoding.md R80). -/

namespace Sys2Proof

/-- One event word: the 64-bit input of one step (30_encoding.md R80). -/
abbrev Word := BitVec 64

/-- A tick quantity: `elapsed`, `meas_shift`, `interval` and the tick-valued parameters (00_scope.md R8). -/
abbrev Ticks := BitVec 32

/-- A count of milliseconds (00_scope.md R8). -/
abbrev Millis := BitVec 32

/-- The opaque consumer context (00_scope.md R8). -/
abbrev Context := BitVec 32

/-- The decoded address, ADDR_W = 16 bits (00_scope.md R7). -/
abbrev Address := BitVec 16

/-- The decoded command, CMD_W = 8 bits (00_scope.md R7). -/
abbrev Command := BitVec 8

/-- The raw bitmap, RAW_BITS = 96 one-bit cells (00_scope.md R7, 20_memory.md R60). -/
abbrev RawBitmap := BitVec 96

end Sys2Proof
end

