-- ==== Sys2Proof/Syntax.lean ====
section
/-! DEFINITION. The five event words of spec/opcode_table.json as one inductive (30_encoding.md R81, R90). -/

namespace Sys2Proof

/-- The operation of one legal event word with the operands it reads (30_encoding.md R82, R84). -/
inductive Instr where
  /-- The null event (40_dispatch.md R111). -/
  | nop
  /-- The edge-interrupt notification: the level after the edge and the elapsed ticks (40_dispatch.md R112). -/
  | edge (lvl : Bool) (el : Ticks)
  /-- The timer-expiry notification: the level read at the expiry (40_dispatch.md R113). -/
  | tick (lvl : Bool)
  /-- `initialize()` (45_host_ops.md R220). -/
  | init
  /-- `set_callback(callback, context)` (45_host_ops.md R222). -/
  | setcb (en : Bool) (ctx : Context)
deriving DecidableEq, Repr

end Sys2Proof
end

