-- ==== Sys2Proof/Decode.lean ====
section
/-! DEFINITION. The event word's fields, its decoder and encoder, and the opcode map (30_encoding.md R80–R91). -/

namespace Sys2Proof

/-- `op = w[2:0]` (30_encoding.md R80). -/
def Word.op (w : Word) : BitVec 3 := w.extractLsb' 0 3

/-- `w[3]`: the level of EDGE and TICK, the install flag of SETCB (30_encoding.md R80, R84). -/
def Word.lvl (w : Word) : Bool := w.getLsbD 3

/-- `rsv0 = w[7:4]` (30_encoding.md R80). -/
def Word.rsv0 (w : Word) : BitVec 4 := w.extractLsb' 4 4

/-- `data = w[39:8]`: the timer reading of EDGE, the context of SETCB (30_encoding.md R80, R84). -/
def Word.data (w : Word) : BitVec 32 := w.extractLsb' 8 32

/-- `rsv1 = w[63:40]` (30_encoding.md R80). -/
def Word.rsv1 (w : Word) : BitVec 24 := w.extractLsb' 40 24

/-- Why a word is illegal (30_encoding.md R91). The spec gives all three one effect; the names are the model's
(log entry 11). -/
inductive Reject where
  /-- `op` is 5, 6 or 7. -/
  | reservedOp
  /-- `rsv0` or `rsv1` is not zero. -/
  | reservedBits
  /-- A field the operation does not read is not zero. -/
  | unusedOperand
deriving DecidableEq, Repr

/-- The operation of a word, or the reason it is illegal (30_encoding.md R81–R84, R91). -/
def decode (w : Word) : Except Reject Instr :=
  if 4 < w.op.toNat then .error .reservedOp
  else if w.rsv0 ≠ 0 ∨ w.rsv1 ≠ 0 then .error .reservedBits
  else match w.op.toNat with
    | 0 => if w.lvl ∨ w.data ≠ 0 then .error .unusedOperand else .ok .nop
    | 1 => .ok (.edge w.lvl w.data)
    | 2 => if w.data ≠ 0 then .error .unusedOperand else .ok (.tick w.lvl)
    | 3 => if w.lvl ∨ w.data ≠ 0 then .error .unusedOperand else .ok .init
    | _ => .ok (.setcb w.lvl w.data)

/-- A word from its five fields, the highest first (30_encoding.md R80). -/
def Word.ofFields (rsv1 : BitVec 24) (data : BitVec 32) (rsv0 : BitVec 4) (lvl : Bool) (op : BitVec 3) : Word :=
  rsv1 ++ data ++ rsv0 ++ BitVec.ofBool lvl ++ op

/-- The word of an operation: reserved and unused fields are 0 (30_encoding.md R81, R82). -/
def encode : Instr → Word
  | .nop => Word.ofFields 0 0 0 false 0
  | .edge lvl el => Word.ofFields 0 el 0 lvl 1
  | .tick lvl => Word.ofFields 0 0 0 lvl 2
  | .init => Word.ofFields 0 0 0 false 3
  | .setcb en ctx => Word.ofFields 0 ctx 0 en 4

/-- One row of the opcode map (30_encoding.md R90): a word is of the row when its bits under the mask are the pattern. -/
structure OpcodeRow where
  /-- The row's mnemonic. -/
  mnemonic : String
  /-- The column `match`. -/
  pattern : Word
  /-- The column `mask`: the bits the row fixes. -/
  mask : Word
deriving DecidableEq, Repr

/-- The opcode map of 30_encoding.md R90, row by row. -/
def opcodeMap : List OpcodeRow :=
  [⟨"NOP", 0x0000000000000000#64, 0xFFFFFFFFFFFFFFFF#64⟩,
   ⟨"EDGE", 0x0000000000000001#64, 0xFFFFFF00000000F7#64⟩,
   ⟨"TICK", 0x0000000000000002#64, 0xFFFFFFFFFFFFFFF7#64⟩,
   ⟨"INIT", 0x0000000000000003#64, 0xFFFFFFFFFFFFFFFF#64⟩,
   ⟨"SETCB", 0x0000000000000004#64, 0xFFFFFF00000000F7#64⟩]

/-- `(w & mask) == match` (30_encoding.md R90). -/
abbrev OpcodeRow.Matches (r : OpcodeRow) (w : Word) : Prop := w &&& r.mask = r.pattern

/-- The mnemonic an operation has in the opcode map. -/
def Instr.mnemonic : Instr → String
  | .nop => "NOP"
  | .edge _ _ => "EDGE"
  | .tick _ => "TICK"
  | .init => "INIT"
  | .setcb _ _ => "SETCB"

/-- The instruction the decoder reads from a word given as the opcode table numbers its bits: the low `nbits` bits of `w`,
the bits above them zero; a number too long for one event word is none. -/
def decodeTableWord (nbits w : Nat) : Option Instr :=
  if w % 2 ^ nbits < 2 ^ 64 then (decode (BitVec.ofNat 64 (w % 2 ^ nbits))).toOption else none

end Sys2Proof
end

