-- ==== Sys2Proof/Config.lean ====
section
/-! DEFINITION. The parameter record `P` (00_scope.md R6), its well-formedness (R9), and the values it leaves OPEN: an
opaque constant, of which nothing can be proved beyond its type. The free values of a step are in Machine/State.lean. -/

namespace Sys2Proof

/-- The parameter record of 00_scope.md R6, with the parameters in the order of its table. -/
structure Params where
  /-- `TICK_HZ`, the timer's tick frequency; it has no width, and no rule of a step reads it. -/
  tickHz : Nat
  /-- `HK_TICKS`, timer ticks in the housekeeping interval. -/
  hkTicks : Ticks
  /-- `SYNC_PULSE_MIN`, minimum valid header pulse, exclusive. -/
  syncPulseMin : Ticks
  /-- `SYNC_PULSE_MAX`, one-shot bound while measuring the header pulse. -/
  syncPulseMax : Ticks
  /-- `SYNC_GAP_MIN`, minimum valid header gap, exclusive. -/
  syncGapMin : Ticks
  /-- `SYNC_GAP_MAX`, one-shot bound while measuring the header gap. -/
  syncGapMax : Ticks
  /-- `REP_PULSE_MIN`, repeat pulse minimum, exclusive. -/
  repPulseMin : Ticks
  /-- `REP_PULSE_MAX`, one-shot bound while measuring a repeat pulse. -/
  repPulseMax : Ticks
  /-- `REP_GAP_MIN`, repeat gap minimum, exclusive. -/
  repGapMin : Ticks
  /-- `REP_GAP_MAX`, one-shot bound while measuring a repeat gap. -/
  repGapMax : Ticks
  /-- `REPEAT_TIMEOUT_MS`, repeat timeout threshold in ms, exclusive. -/
  repeatTimeoutMs : Millis
  /-- `RAW_OOB_BIT`, what a frame-decoder read returns at raw index 96 or above (the spec takes 1). -/
  rawOobBit : Bool
deriving DecidableEq, Repr

/-- Parameter well-formedness, the three constraints of 00_scope.md R9 in its order. -/
abbrev Params.Legal (P : Params) : Prop :=
  95 ≤ P.syncPulseMin.toNat ∧
  (1 ≤ P.syncPulseMax.toNat ∧ 1 ≤ P.syncGapMax.toNat ∧ 1 ≤ P.repPulseMax.toNat ∧
    1 ≤ P.repGapMax.toNat ∧ 1 ≤ P.hkTicks.toNat) ∧
  P.repeatTimeoutMs.toNat ≤ 2 ^ 32 - 11

/-- A record the model runs with: one that meets R9. The default of the two fields only shows Lean that a legal record
exists; no definition takes it. -/
structure LegalParams where
  /-- The record itself. -/
  val : Params := ⟨0, 1#32, 95#32, 1#32, 0#32, 1#32, 0#32, 1#32, 0#32, 1#32, 0#32, true⟩
  /-- It meets 00_scope.md R9. -/
  legal : val.Legal := by decide
deriving DecidableEq, Repr, Inhabited

/-- The eleven OPEN parameters of 00_scope.md R6 (92_eei_decisions.md D26): some legal record, and nothing more is known
of it. DESIGN CHOICE, safe; log entry 2. -/
opaque Config.openParams : LegalParams

/-- The record a run from `State.reset` uses: the OPEN parameters, with RAW_OOB_BIT at the value R6 gives it. -/
def Config.params : LegalParams where
  val := { Config.openParams.val with rawOobBit := true }
  legal := Config.openParams.legal

end Sys2Proof
end

