-- ==== Sys2Proof/Machine/State.lean ====
section
/-! DEFINITION. The state of the decoder block (10_state.md R20–R37), the actions of a step (30_encoding.md R85), the
reasons a step of the model can stop, and the state after power-on reset (70_reset_and_hazards.md R280). -/

namespace Sys2Proof.Machine

/-- The Top-level state, of exactly three values (10_state.md R21). -/
inductive Top where
  | synchronizing
  | receivingCommand
  | waitRepeat
deriving DecidableEq, Repr

/-- The Sync state (10_state.md R22). -/
inductive SyncState where
  | waitRise
  | waitFall
  | waitRiseEnd
  | done
deriving DecidableEq, Repr

/-- The Repeat state (10_state.md R23); its `fault` is a state of the protocol, not the fault register. -/
inductive RepeatState where
  | waitRise
  | waitFall
  | waitRiseEnd
  | fault
deriving DecidableEq, Repr

/-- The bits of the fault register, bit 0 first (30_encoding.md R88). -/
inductive FaultBit where
  | illegalOp
  | eventBeforeInit
  | multiInit
  | noConsumer
deriving DecidableEq, Repr

/-- The output actions (30_encoding.md R85). -/
inductive Action where
  | pinConfig
  | tmrConfig
  | tmrOneShot (n : Ticks)
  | tmrContinuous (n : Ticks)
  | tmrStop
  | emit (ctx : Context) (addr : Address) (cmd : Command) (rep : Bool)
deriving DecidableEq, Repr

/-- The reasons a step of the model stops: none. A step is total (00_scope.md R3), and nothing stops the block
(60_exceptions.md R240). -/
inductive Fault where
deriving DecidableEq, Repr

/-- What the model has no meaning for. -/
inductive Refusal where
  /-- An instruction without a meaning; no arm of `exec` raises it. -/
  | notModelled (mnemonic : String)
  /-- Raised by power-on with a parameter record that breaks 00_scope.md R9 ("A model refuses (does not run) a parameter
  record that breaks any of these constraints"). Safe; log entry 2. -/
  | illegalParams
deriving DecidableEq, Repr

/-- The record of 10_state.md R20, in the order of its table, and then the three fields of the model's own: the parameter
record, the words yet to be presented and the actions of the last step. -/
structure State where
  /-- `top` (R21). -/
  top : Top
  /-- `sync` (R22). -/
  sync : SyncState
  /-- `rep` (R23). -/
  rep : RepeatState
  /-- `raw`, cell `i` at bit `i` (R24; 20_memory.md R60; log entry 5). -/
  raw : RawBitmap
  /-- `bits_received` (R25). -/
  bitsReceived : BitVec 8
  /-- `acc` (R26). -/
  acc : BitVec 32
  /-- `sample_count` (R27). -/
  sampleCount : BitVec 2
  /-- `meas_shift` (R28). -/
  measShift : Ticks
  /-- `interval` (R29). -/
  interval : Ticks
  /-- `rearm` (R30). -/
  rearm : Bool
  /-- `elapsed_ms` (R31). -/
  elapsedMs : Millis
  /-- `last_address` (R32). -/
  lastAddress : Address
  /-- `last_command` (R33). -/
  lastCommand : Command
  /-- `cmd_received` (R34). -/
  cmdReceived : Bool
  /-- `cb_valid` (R35). -/
  cbValid : Bool
  /-- `cb_ctx` (R35). -/
  cbCtx : Context
  /-- `initialized` (R36). -/
  initialized : Bool
  /-- `fault`, the sticky fault register (R37; 30_encoding.md R88). -/
  fault : BitVec 4
  /-- The parameter record `P` the block runs with (00_scope.md R3, R6); the model's own field, log entry 2. -/
  params : LegalParams
  /-- The event words the environment has yet to present, the next one first (R3; 20_memory.md R70); the model's own
  field, log entry 1. -/
  pending : List Word
  /-- The ordered actions of the last step (00_scope.md R14; 30_encoding.md R85); the model's own field, log entry 6. -/
  acts : List Action
deriving DecidableEq, Repr

/-- The parameters of the block, as plain fields. -/
abbrev State.P (s : State) : Params := s.params.val

/-- Power-on reset with the record `P`: every field of 10_state.md R20 is 0 (70_reset_and_hazards.md R280). -/
def State.por (P : LegalParams) : State where
  top := .synchronizing
  sync := .waitRise
  rep := .waitRise
  raw := 0
  bitsReceived := 0
  acc := 0
  sampleCount := 0
  measShift := 0
  interval := 0
  rearm := false
  elapsedMs := 0
  lastAddress := 0
  lastCommand := 0
  cmdReceived := false
  cbValid := false
  cbCtx := 0
  initialized := false
  fault := 0
  params := P
  pending := []
  acts := []

/-- The machine right after power-on reset, with the parameters left open (70_reset_and_hazards.md R280). -/
def State.reset : State := State.por Config.params

/-- What a free value may depend on: the parameters, the record and the actions so far of the step, but not the words to
come (00_scope.md R3) and not the fault register, which has no effect on any transition (60_exceptions.md R243). -/
def State.visible (s : State) : State := { s with pending := [], fault := 0 }

end Sys2Proof.Machine

namespace Sys2Proof

open Machine

/-- Free value: what `sample_count` holds after the sum 3 + 1, which its two bits cannot hold, from the state and the level
sampled (42_sampler.md R152, from a count that 10_state.md R27 says no step leaves). DESIGN CHOICE, safe; log entry 3. -/
opaque Config.freeSampleCount : State → Bool → BitVec 2

/-- Free value: the raw bitmap after a write at an index of 96 or above, for which 20_memory.md R61 defines none, from the
state that stores the raw bit. DESIGN CHOICE, safe; log entry 4. -/
opaque Config.freeRaw : State → RawBitmap

/-- Free value: what `bits_received` holds after the sum 255 + 1, which its eight bits cannot hold (42_sampler.md R153).
DESIGN CHOICE, safe; log entry 4. -/
opaque Config.freeBitsReceived : State → BitVec 8

end Sys2Proof
end

