-- ==== Sys2Proof/Machine/Flags.lean ====
section
/-! DEFINITION. The fault register: which bit each contract violation sets (30_encoding.md R88, 60_exceptions.md R241). -/

namespace Sys2Proof.Machine

/-- The number of the bit (30_encoding.md R88). -/
def FaultBit.index : FaultBit → Nat
  | .illegalOp => 0
  | .eventBeforeInit => 1
  | .multiInit => 2
  | .noConsumer => 3

/-- The register with that bit alone. -/
def FaultBit.mask (f : FaultBit) : BitVec 4 := 1#4 <<< f.index

/-- `raise Fault(F)`: sets one sticky bit and does nothing else (00_scope.md R14, 10_state.md R37). -/
def State.raise (s : State) (f : FaultBit) : State := { s with fault := s.fault ||| f.mask }

/-- Whether the bit is set. -/
def State.hasFault (s : State) (f : FaultBit) : Bool := s.fault.getLsbD f.index

end Sys2Proof.Machine
end

