-- ==== Sys2Proof/Machine/Operands.lean ====
section
/-! DEFINITION. The values the rules compute from their operands: the accesses to the raw bitmap (20_memory.md R61, R62),
the header calibration (41_sync.md R133) and the oversample vote (42_sampler.md R152, R153). -/

namespace Sys2Proof.Machine

/-- `MemRead(i, 1)`: the cell below 96, the parameter RAW_OOB_BIT at 96 and above (20_memory.md R62). -/
def memRead (oob : Bool) (raw : RawBitmap) (i : Nat) : Bool :=
  if i < 96 then raw.getLsbD i else oob

/-- `MemWrite(i, 1, b)`: sets one cell; there is no cell at 96 and above (20_memory.md R61). -/
def memWrite (raw : RawBitmap) (i : Nat) (b : Bool) : Option RawBitmap :=
  if i < 96 then
    some (if b then raw ||| BitVec.twoPow 96 i else raw &&& ~~~(BitVec.twoPow 96 i))
  else none

/-- `interval <- (p // 16) // 3`, from the header pulse width (41_sync.md R133, R141). -/
def sampleInterval (p : Ticks) : Ticks := p / 16#32 / 3#32

/-- `meas_shift <- interval // 2`, from the header pulse width (41_sync.md R133, R141). -/
def measurementShift (p : Ticks) : Ticks := sampleInterval p / 2#32

/-- `((acc << 1) | level) mod 2^32` (42_sampler.md R152). -/
def shiftInSample (acc : BitVec 32) (lvl : Bool) : BitVec 32 :=
  (acc <<< 1) ||| (BitVec.ofBool lvl).setWidth 32

/-- The raw bit of three oversamples: 1 only if `acc[2:0]` is `0b111` (42_sampler.md R153, R156). -/
def resolveVote (acc : BitVec 32) : Bool := acc.extractLsb' 0 3 == 0b111#3

end Sys2Proof.Machine
end

