-- ==== Sys2Proof/Machine/Ops.lean ====
section
/-! DEFINITION. The shared operations: appending an action (00_scope.md R14), ResetDecoder (70_reset_and_hazards.md R281)
and Deliver (40_dispatch.md R118). The block has no exception to enter and none to return from (60_exceptions.md R240,
R248, R249): a contract violation is `State.raise` of Flags.lean, and a recovery ends in `State.resetDecoder`. -/

namespace Sys2Proof.Machine

/-- `act A(args)`: appends one action to the step's list (00_scope.md R14). -/
def State.act (s : State) (a : Action) : State := { s with acts := s.acts ++ [a] }

/-- `ResetDecoder()`: every protocol field to its reset value and `TmrStop()`; the consumer registration, `initialized` and
`fault` are kept (70_reset_and_hazards.md R281). -/
def State.resetDecoder (s : State) : State :=
  State.act
    { s with
      top := .synchronizing
      sync := .waitRise
      rep := .waitRise
      raw := 0
      bitsReceived := 0
      acc := 0
      sampleCount := 0
      measShift := 0
      interval := 0
      rearm := false
      elapsedMs := 0
      lastAddress := 0
      lastCommand := 0
      cmdReceived := false }
    .tmrStop

/-- `Deliver(addr, cmd, rep)`: the consumer callback, or the NO_CONSUMER bit when none is installed (40_dispatch.md R118). -/
def State.deliver (s : State) (addr : Address) (cmd : Command) (rep : Bool) : State :=
  if s.cbValid then s.act (.emit s.cbCtx addr cmd rep) else s.raise .noConsumer

/-- `TmrContinuous(P.HK_TICKS)`, the housekeeping timer (44_repeat.md, before R190). -/
def State.startHousekeeping (s : State) : State := s.act (.tmrContinuous s.P.hkTicks)

/-- The effect of an EDGE or TICK word before INIT: the bit, and nothing else (40_dispatch.md R112, R113). -/
def State.eventBeforeInit (s : State) : State := s.raise .eventBeforeInit

end Sys2Proof.Machine
end

