-- ==== Sys2Proof/Machine/Repeat.lean ====
section
/-! DEFINITION. The repeat-frame detector and the timeout watchdog, live while `top = WaitRepeat` (44_repeat.md R190–R201). -/

namespace Sys2Proof.Machine

/-- WaitRise, rising edge: start measuring a repeat pulse (44_repeat.md R191). -/
def repStartPulse (s : State) : State :=
  State.act { s with rep := .waitFall } (.tmrOneShot s.P.repPulseMax)

/-- A repeat measurement failed: the Repeat state Fault, with the housekeeping timer (44_repeat.md R194, R197, R201). -/
def repFail (s : State) : State := State.startHousekeeping { s with rep := .fault }

/-- WaitFall, falling edge: go on to the gap, or fail if the pulse is not above the minimum (44_repeat.md R193, R194). -/
def repEndPulse (p : Ticks) (s : State) : State :=
  if s.P.repPulseMin < p then State.act { s with rep := .waitRiseEnd } (.tmrOneShot s.P.repGapMax) else repFail s

/-- A confirmed repeat: deliver the stored command again and restart the window (44_repeat.md R196). -/
def repConfirm (s : State) : State :=
  let t := s.deliver s.lastAddress s.lastCommand true
  State.startHousekeeping { t with elapsedMs := 0, rep := .waitRise }

/-- WaitRiseEnd, rising edge: confirm, or fail if the gap is not above the minimum (44_repeat.md R196, R197). -/
def repEndGap (g : Ticks) (s : State) : State :=
  if s.P.repGapMin < g then repConfirm s else repFail s

/-- `RepEdge(level, elapsed)`, the table of 44_repeat.md R190; the edges a state does not wait for are ignored
(R192, R195, R198, R199). -/
def repEdge (lvl : Bool) (el : Ticks) (s : State) : State :=
  match s.rep, lvl with
  | .waitRise, true => repStartPulse s
  | .waitRise, false => s
  | .waitFall, true => s
  | .waitFall, false => repEndPulse el s
  | .waitRiseEnd, true => repEndGap el s
  | .waitRiseEnd, false => s
  | .fault, _ => s

/-- The housekeeping tick: 10 ms more, and the full reset when the sum exceeds the timeout (44_repeat.md R200). The sum is
exact (00_scope.md R10; log entry 7); where it does not exceed the timeout it fits the field. -/
def housekeepingTick (s : State) : State :=
  if s.P.repeatTimeoutMs.toNat < s.elapsedMs.toNat + 10 then s.resetDecoder
  else { s with elapsedMs := s.elapsedMs + 10#32 }

/-- `RepTick()` (44_repeat.md R200, R201). -/
def repTick (s : State) : State :=
  match s.rep with
  | .waitRise => housekeepingTick s
  | .waitFall => repFail s
  | .waitRiseEnd => repFail s
  | .fault => housekeepingTick s

end Sys2Proof.Machine
end

