-- ==== Sys2Proof/Machine/FrameDecoder.lean ====
section
/-! DEFINITION. The frame decoder and its checksum (43_frame_decoder.md R170–R176). -/

namespace Sys2Proof.Machine

/-- `LogicalBit(c)`: the logical bit at the cursor and the cursor's advance, or none for a malformed pattern
(43_frame_decoder.md R171, R172). -/
def logicalBit (oob : Bool) (raw : RawBitmap) (c : Nat) : Option (Bool × Nat) :=
  if memRead oob raw c = false ∨ memRead oob raw (c + 1) = true then none
  else if memRead oob raw (c + 2) = true then some (false, 2)
  else if memRead oob raw (c + 3) = true then none
  else some (true, 4)

/-- The loop of `Decode()`: `n` more logical bits from logical index `k`, with the cursor at `c` and the bits so far in
`F`; it answers the frame word and the final cursor (43_frame_decoder.md R170). -/
def parseBits (oob : Bool) (raw : RawBitmap) : Nat → Nat → Nat → BitVec 32 → Option (BitVec 32 × Nat)
  | 0, _, c, F => some (F, c)
  | n + 1, k, c, F =>
    match logicalBit oob raw c with
    | none => none
    | some (b, adv) => parseBits oob raw n (k + 1) (c + adv) (F ||| ((BitVec.ofBool b).setWidth 32 <<< k))

/-- The 32 logical bits from raw index 0 (43_frame_decoder.md R170). -/
def parseFrame (oob : Bool) (raw : RawBitmap) : Option (BitVec 32 × Nat) := parseBits oob raw 32 0 0 0

/-- `addr = F[15:0]` (43_frame_decoder.md R173). -/
def frameAddress (F : BitVec 32) : Address := F.extractLsb' 0 16

/-- `cmd = F[23:16]` (43_frame_decoder.md R173). -/
def frameCommand (F : BitVec 32) : Command := F.extractLsb' 16 8

/-- `inv = F[31:24]` (43_frame_decoder.md R173). -/
def frameInverted (F : BitVec 32) : Command := F.extractLsb' 24 8

/-- `zext_9(cmd) + zext_9(inv) == 0xFF` (43_frame_decoder.md R174). -/
def checksumOk (cmd inv : Command) : Bool := cmd.setWidth 9 + inv.setWidth 9 == 0xFF#9

/-- `Decode()` without its writes: the address and command of an accepted image (43_frame_decoder.md R170, R177). -/
def decodeFrame (oob : Bool) (raw : RawBitmap) : Option (Address × Command) :=
  match parseFrame oob raw with
  | none => none
  | some (F, _) =>
    if checksumOk (frameCommand F) (frameInverted F) then some (frameAddress F, frameCommand F) else none

/-- The writes of a successful `Decode()`, and the delivery (43_frame_decoder.md R175). -/
def storeAndDeliver (addr : Address) (cmd : Command) (s : State) : State :=
  State.deliver { s with lastAddress := addr, lastCommand := cmd, cmdReceived := true } addr cmd false

end Sys2Proof.Machine
end

