-- ==== Sys2Proof/Machine/Sampler.lean ====
section
/-! DEFINITION. The bit sampler, live while `top = ReceivingCommand` (42_sampler.md R150–R156). -/

namespace Sys2Proof.Machine

/-- `Rearm()`, run while the flag is set: the sample clock starts (42_sampler.md R150, R151). -/
def rearmIfSet (s : State) : State :=
  if s.rearm then State.act { s with rearm := false } (.tmrContinuous s.interval) else s

/-- `s.sample_count + 1` (42_sampler.md R152). The sum 4, from a count of 3 that no step leaves (10_state.md R27), is no
two-bit value: the count is then a free value (log entry 3). -/
def nextSampleCount (lvl : Bool) (s : State) : BitVec 2 :=
  if s.sampleCount = 3#2 then Config.freeSampleCount s.visible lvl else s.sampleCount + 1#2

/-- `Accumulate(level)` (42_sampler.md R152). -/
def accumulate (lvl : Bool) (s : State) : State :=
  { s with acc := shiftInSample s.acc lvl, sampleCount := nextSampleCount lvl s }

/-- The bitmap with the resolved bit at `bits_received` (42_sampler.md R153). At 96 and above, where no write is defined
(20_memory.md R61) and which no run reaches (10_state.md R41), the whole bitmap is a free value (log entry 4). -/
def storeRawBit (s : State) : RawBitmap :=
  match memWrite s.raw s.bitsReceived.toNat (resolveVote s.acc) with
  | some raw => raw
  | none => Config.freeRaw s.visible

/-- `s.bits_received + 1` (42_sampler.md R153). The sum 256 is no eight-bit value: the count is then a free value (log
entry 4). -/
def nextBitsReceived (s : State) : BitVec 8 :=
  if s.bitsReceived = 255#8 then Config.freeBitsReceived s.visible else s.bitsReceived + 1#8

/-- `ResolveBit()` (42_sampler.md R153). -/
def resolveBit (s : State) : State :=
  { s with raw := storeRawBit s, bitsReceived := nextBitsReceived s, acc := 0, sampleCount := 0 }

/-- The success path of a complete frame, after the stores and the delivery of `Decode()` (42_sampler.md R155). -/
def enterWaitRepeat (s : State) : State :=
  State.startHousekeeping { s with top := .waitRepeat, bitsReceived := 0, elapsedMs := 50#32 }

/-- `FrameComplete()` (42_sampler.md R154, R155). -/
def frameComplete (s : State) : State :=
  match decodeFrame s.P.rawOobBit s.raw with
  | none => s.resetDecoder
  | some (addr, cmd) => enterWaitRepeat (storeAndDeliver addr cmd s)

/-- The end of a raw bit: with the 96th the frame is complete (42_sampler.md R150). -/
def finishRawBit (s : State) : State := if s.bitsReceived = 96#8 then frameComplete s else s

/-- `SampleTick(level)` (42_sampler.md R150). -/
def sampleTick (lvl : Bool) (s : State) : State :=
  let t := accumulate lvl (rearmIfSet s)
  if t.sampleCount = 3#2 then finishRawBit (resolveBit t) else t

end Sys2Proof.Machine
end

