-- ==== Sys2Proof/Machine/Sync.lean ====
section
/-! DEFINITION. The synchronization detector, live while `top = Synchronizing` (41_sync.md R130–R140). -/

namespace Sys2Proof.Machine

/-- WaitRise, rising edge: start measuring the header pulse (41_sync.md R131). -/
def syncStartPulse (s : State) : State :=
  State.act { s with sync := .waitFall } (.tmrOneShot s.P.syncPulseMax)

/-- WaitFall, falling edge, valid header pulse: calibrate (41_sync.md R133). -/
def syncCalibrate (p : Ticks) (s : State) : State :=
  State.act { s with interval := sampleInterval p, measShift := measurementShift p, sync := .waitRiseEnd }
    (.tmrOneShot s.P.syncGapMax)

/-- WaitFall, falling edge: calibrate, or noise if the pulse is not above the minimum (41_sync.md R133, R134). -/
def syncEndPulse (p : Ticks) (s : State) : State :=
  if s.P.syncPulseMin < p then syncCalibrate p s else s.resetDecoder

/-- WaitRiseEnd, rising edge, valid header gap: synchronization complete (41_sync.md R136). -/
def syncComplete (s : State) : State :=
  State.act { s with top := .receivingCommand, sync := .done, rearm := true } (.tmrOneShot s.measShift)

/-- WaitRiseEnd, rising edge: complete, or reset if the gap is not above the minimum (41_sync.md R136, R137). -/
def syncEndGap (g : Ticks) (s : State) : State :=
  if s.P.syncGapMin < g then syncComplete s else s.resetDecoder

/-- `SyncEdge(level, elapsed)`, the table of 41_sync.md R130; the edges a state does not wait for are ignored
(R132, R135, R138, R139). -/
def syncEdge (lvl : Bool) (el : Ticks) (s : State) : State :=
  match s.sync, lvl with
  | .waitRise, true => syncStartPulse s
  | .waitRise, false => s
  | .waitFall, true => s
  | .waitFall, false => syncEndPulse el s
  | .waitRiseEnd, true => syncEndGap el s
  | .waitRiseEnd, false => s
  | .done, _ => s

/-- `SyncTick()`: the expiry of a measurement's one-shot resets (41_sync.md R140). -/
def syncTick (s : State) : State :=
  match s.sync with
  | .waitRise => s
  | .waitFall => s.resetDecoder
  | .waitRiseEnd => s.resetDecoder
  | .done => s

end Sys2Proof.Machine
end

