-- ==== Sys2Proof/Machine/Events.lean ====
section
/-! DEFINITION. The meanings of NOP, EDGE and TICK (40_dispatch.md R111–R116). -/

namespace Sys2Proof.Machine

/-- NOP: nothing (40_dispatch.md R111). -/
def execNop (s : State) : Host.Outcome State Fault Refusal := .next s

/-- EDGE: the edge handler (40_dispatch.md R112); in ReceivingCommand an edge is ignored (R116). -/
def execEdge (lvl : Bool) (el : Ticks) (s : State) : Host.Outcome State Fault Refusal :=
  if s.initialized then
    match s.top with
    | .synchronizing => .next (syncEdge lvl el s)
    | .receivingCommand => .next s
    | .waitRepeat => .next (repEdge lvl el s)
  else .next s.eventBeforeInit

/-- TICK: the timer handler (40_dispatch.md R113). -/
def execTick (lvl : Bool) (s : State) : Host.Outcome State Fault Refusal :=
  if s.initialized then
    match s.top with
    | .synchronizing => .next (syncTick s)
    | .receivingCommand => .next (sampleTick lvl s)
    | .waitRepeat => .next (repTick s)
  else .next s.eventBeforeInit

end Sys2Proof.Machine
end

