-- ==== Sys2Proof/Machine/HostOps.lean ====
section
/-! DEFINITION. The meanings of the host operations INIT and SETCB (45_host_ops.md R220–R222), and power-on with a given
parameter record (00_scope.md R9). -/

namespace Sys2Proof.Machine

/-- The MULTI_INIT bit of a repeated INIT, which is then performed in full (45_host_ops.md R221). -/
def noteRepeatedInit (s : State) : State := if s.initialized then s.raise .multiInit else s

/-- INIT: `initialize()` (45_host_ops.md R220). -/
def execInit (s : State) : Host.Outcome State Fault Refusal :=
  let t := (((noteRepeatedInit s).act .pinConfig).act .tmrConfig).resetDecoder
  .next { t with initialized := true }

/-- SETCB: `set_callback(callback, context)` (45_host_ops.md R222). -/
def execSetcb (en : Bool) (ctx : Context) (s : State) : Host.Outcome State Fault Refusal :=
  .next { s with cbValid := en, cbCtx := ctx }

/-- Power-on with a parameter record: the POR state, or the refusal of a record that breaks 00_scope.md R9
(70_reset_and_hazards.md R280, R292). -/
def powerOn (P : Params) : Host.Outcome State Fault Refusal :=
  if h : P.Legal then .next (State.por ⟨P, h⟩) else .refused .illegalParams

end Sys2Proof.Machine
end

