-- ==== Sys2Proof/Machine/Dispatch.lean ====
section
/-! DEFINITION. The one dispatch of an instruction to its meaning (40_dispatch.md R110). -/

namespace Sys2Proof.Machine

def exec (i : Instr) (s : State) : Host.Outcome State Fault Refusal :=
  match i with
  | .nop => Sys2Proof.Machine.execNop s
  | .edge lvl el => Sys2Proof.Machine.execEdge lvl el s
  | .tick lvl => Sys2Proof.Machine.execTick lvl s
  | .init => Sys2Proof.Machine.execInit s
  | .setcb en ctx => Sys2Proof.Machine.execSetcb en ctx s

end Sys2Proof.Machine
end

