-- ==== Sys2Proof/Machine/Fetch.lean ====
section
/-! DEFINITION. How the block comes by its event word (00_scope.md R3, 20_memory.md R70), and the effect of a word that is
illegal (40_dispatch.md R110). -/

namespace Sys2Proof.Machine

/-- The next word the environment presents, and the state in which its step begins: the word taken, the action list
empty (40_dispatch.md R110: `acts <- []`); none when the environment has no word to present (log entry 1). -/
def State.takeWord (s : State) : Option (Word × State) :=
  match s.pending with
  | [] => none
  | w :: rest => some (w, { s with pending := rest, acts := [] })

/-- No word is presented: the block holds its state (60_exceptions.md R257), and the ports of the last step, valid for that
step only, show no action (30_encoding.md R86). -/
def State.idle (s : State) : State := { s with acts := [] }

/-- An illegal word: `ILLEGAL_OP` and no other effect (40_dispatch.md R110, 45_host_ops.md R223). -/
def State.illegalWord (s : State) : State := s.raise .illegalOp

/-- The state with one more word to present, before all others. -/
def State.presentNext (s : State) (w : Word) : State := { s with pending := w :: s.pending }

end Sys2Proof.Machine
end

