-- ==== Sys2Proof/Machine/Step.lean ====
section
/-! DEFINITION. One step of the block (40_dispatch.md R110). -/

namespace Sys2Proof.Machine

/-- The effect of one event word on the state in which its step begins (40_dispatch.md R110). -/
def stepWord (w : Word) (s : State) : Host.Outcome State Fault Refusal :=
  match decode w with
  | .ok i => exec i s
  | .error _ => .next s.illegalWord

/-- One step: the next word of the environment, if it presents one. -/
def step (s : State) : Host.Outcome State Fault Refusal :=
  match s.takeWord with
  | none => .next s.idle
  | some (w, t) => stepWord w t

/-- The state with the instruction whose table bits are `w` as the next word to present (log entry 1). -/
def State.withFetchWord (s : State) (nbits w : Nat) : State := s.presentNext (BitVec.ofNat 64 (w % 2 ^ nbits))

end Sys2Proof.Machine
end

