-- ==== Sys2Proof/WellFormed.lean ====
section
/-! DEFINITION. What is well-formed: the legality of an event word (30_encoding.md R83) and the operand ranges of an
assembler line (30_encoding.md R93, R94). An `Instr` carries its operands at the exact widths of R84, so every one is
well-formed and nothing is left to check on it. -/

namespace Sys2Proof

/-- `Legal(w)`, conjunct by conjunct (30_encoding.md R83). -/
abbrev Legal (w : Word) : Prop :=
  w.op.toNat ≤ 4 ∧ w.rsv0 = 0 ∧ w.rsv1 = 0 ∧
  ((w.op = 0 ∨ w.op = 3) → w.lvl = false ∧ w.data = 0) ∧
  (w.op = 2 → w.data = 0)

/-- One line of the assembler syntax: the base forms of 30_encoding.md R93 and the pseudo-instructions of R94, with the
numbers as they are written. -/
inductive AsmLine where
  | nop
  | edge (lvl el : Nat)
  | tick (lvl : Nat)
  | init
  | setcb (en ctx : Nat)
  | word (x : Nat)
  | rise (el : Nat)
  | fall (el : Nat)
  | sample (lvl : Nat)
  | unit (lvl : Nat)
  | units (s : List Bool)
  | hk (n : Nat)
  | header (p g : Nat)
  | necdata (a c i : Nat)
deriving DecidableEq, Repr

/-- Every operand is in its range (30_encoding.md R93: "An out-of-range operand is an assembly error, not an illegal
word"; the widths of NECDATA's operands are those of R94). -/
def AsmLine.wellFormed : AsmLine → Bool
  | .nop | .init | .units _ | .hk _ => true
  | .edge lvl el => decide (lvl ≤ 1 ∧ el < 2 ^ 32)
  | .tick lvl | .sample lvl | .unit lvl => decide (lvl ≤ 1)
  | .setcb en ctx => decide (en ≤ 1 ∧ ctx < 2 ^ 32)
  | .word x => decide (x < 2 ^ 64)
  | .rise el | .fall el => decide (el < 2 ^ 32)
  | .header p g => decide (p < 2 ^ 32 ∧ g < 2 ^ 32)
  | .necdata a c i => decide (a < 2 ^ 16 ∧ c < 2 ^ 8 ∧ i < 2 ^ 8)

end Sys2Proof
end

