-- ==== Sys2Proof/Machine/Assembler.lean ====
section
/-! DEFINITION. The assembler syntax of event sequences and its pseudo-instructions (30_encoding.md R93, R94). -/

namespace Sys2Proof.Machine

/-- Why a text does not assemble. -/
inductive AsmError where
  /-- A line is of no form of 30_encoding.md R93 or R94. -/
  | badLine
  /-- An operand is out of its range (30_encoding.md R93). -/
  | outOfRange
deriving DecidableEq, Repr

/-- `UNIT L`: three copies of `TICK lvl=L` (30_encoding.md R94). -/
def unitEvents (lvl : Bool) : List Instr := List.replicate 3 (.tick lvl)

/-- `UNITS "s"`: a unit for each character, first character first (30_encoding.md R94). -/
def unitsEvents (u : List Bool) : List Instr := u.flatMap unitEvents

/-- `HEADER P, G` (30_encoding.md R94). -/
def headerEvents (p g : Ticks) : List Instr := [.edge true 0, .edge false p, .edge true g]

/-- The units of one logical bit: `10` for 0 and `1000` for 1 (30_encoding.md R94). -/
def logicalUnits (b : Bool) : List Bool := if b then [true, false, false, false] else [true, false]

/-- The units of the logical bits `0` to `n - 1` of `F`, bit 0 first (30_encoding.md R94). -/
def frameUnits (F : BitVec 32) (n : Nat) : List Bool := (List.range n).flatMap fun k => logicalUnits (F.getLsbD k)

/-- The 96 units of `NECDATA A, C, I`: the 32 bits of `(I, C, A)`, the closing mark, and spaces, cut to 96
(30_encoding.md R94). -/
def necUnits (a : Address) (c i : Command) : List Bool :=
  (frameUnits (i ++ c ++ a) 32 ++ [true] ++ List.replicate 96 false).take 96

/-- The raw bitmap of a list of units, the first in `raw[0]` (20_memory.md R64). -/
def rawImage (u : List Bool) : RawBitmap := (BitVec.ofBoolListLE u).setWidth 96

/-- The words of an assembler line, or the error of an operand out of range (30_encoding.md R93, R94). -/
def AsmLine.words (l : AsmLine) : Except AsmError (List Word) :=
  if l.wellFormed then
    match l with
    | .nop => .ok [encode .nop]
    | .edge lvl el => .ok [encode (.edge (lvl == 1) (BitVec.ofNat 32 el))]
    | .tick lvl => .ok [encode (.tick (lvl == 1))]
    | .init => .ok [encode .init]
    | .setcb en ctx => .ok [encode (.setcb (en == 1) (BitVec.ofNat 32 ctx))]
    | .word x => .ok [BitVec.ofNat 64 x]
    | .rise el => .ok [encode (.edge true (BitVec.ofNat 32 el))]
    | .fall el => .ok [encode (.edge false (BitVec.ofNat 32 el))]
    | .sample lvl => .ok [encode (.tick (lvl == 1))]
    | .unit lvl => .ok ((unitEvents (lvl == 1)).map encode)
    | .units u => .ok ((unitsEvents u).map encode)
    | .hk n => .ok (List.replicate n (encode (.tick false)))
    | .header p g => .ok ((headerEvents (BitVec.ofNat 32 p) (BitVec.ofNat 32 g)).map encode)
    | .necdata a c i =>
      .ok ((unitsEvents (necUnits (BitVec.ofNat 16 a) (BitVec.ofNat 8 c) (BitVec.ofNat 8 i))).map encode)
  else .error .outOfRange

/-- The tokens of a line: words, the separators of operands, and the quotes of UNITS. -/
inductive AsmToken where
  | text (s : List Char)
  | comma
  | equals
  | quote
deriving DecidableEq, Repr

/-- Ends the word gathered so far (its characters in reverse), if there is one. -/
def flushToken (word : List Char) (rest : List AsmToken) : List AsmToken :=
  if word = [] then rest else .text word.reverse :: rest

/-- The tokens of one line; `;` starts a comment (30_encoding.md R93). Blanks and tabs separate words (log entry 10). -/
def lexLine : List Char → List Char → List AsmToken
  | [], word => flushToken word []
  | c :: cs, word =>
    if c = ';' then flushToken word []
    else if c = ',' then flushToken word (.comma :: lexLine cs [])
    else if c = '=' then flushToken word (.equals :: lexLine cs [])
    else if c = '"' then flushToken word (.quote :: lexLine cs [])
    else if c = ' ' ∨ c = '\t' ∨ c = '\r' then flushToken word (lexLine cs [])
    else lexLine cs (c :: word)

/-- The value of a digit of base 10 or 16; hexadecimal letters of either case (log entry 10). -/
def digitValue (base : Nat) (c : Char) : Option Nat :=
  let v :=
    if '0' ≤ c ∧ c ≤ '9' then c.toNat - '0'.toNat
    else if 'a' ≤ c ∧ c ≤ 'f' then c.toNat - 'a'.toNat + 10
    else if 'A' ≤ c ∧ c ≤ 'F' then c.toNat - 'A'.toNat + 10
    else 16
  if v < base then some v else none

/-- The digits of a number, the value read so far in `n`. -/
def readDigits (base : Nat) : List Char → Nat → Option Nat
  | [], n => some n
  | c :: cs, n =>
    match digitValue base c with
    | some d => readDigits base cs (base * n + d)
    | none => none

/-- A number: decimal, or hexadecimal with `0x` (30_encoding.md R93). -/
def readNumber : List Char → Option Nat
  | [] => none
  | '0' :: 'x' :: c :: cs => readDigits 16 (c :: cs) 0
  | c :: cs => readDigits 10 (c :: cs) 0

/-- A string of 0 and 1 characters. -/
def readBits : List Char → Option (List Bool)
  | [] => some []
  | c :: cs =>
    if c = '0' then (readBits cs).map (false :: ·)
    else if c = '1' then (readBits cs).map (true :: ·)
    else none

/-- The line of one numeric operand written without a name. -/
def oneNumber (mk : Nat → AsmLine) : List AsmToken → Option AsmLine
  | [.text x] => (readNumber x).map mk
  | _ => none

/-- The line of one operand written `name=value`. -/
def oneNamed (name : List Char) (mk : Nat → AsmLine) : List AsmToken → Option AsmLine
  | [.text n, .equals, .text x] => if n = name then (readNumber x).map mk else none
  | _ => none

/-- The line of two operands written `name=value`, separated by a comma. -/
def twoNamed (name₁ name₂ : List Char) (mk : Nat → Nat → AsmLine) : List AsmToken → Option AsmLine
  | [.text n₁, .equals, .text x₁, .comma, .text n₂, .equals, .text x₂] =>
    if n₁ = name₁ ∧ n₂ = name₂ then
      match readNumber x₁, readNumber x₂ with
      | some a, some b => some (mk a b)
      | _, _ => none
    else none
  | _ => none

/-- A line that begins with the mnemonic `m`, from its other tokens (30_encoding.md R93, R94). -/
def readLine (m : List Char) (rest : List AsmToken) : Option AsmLine :=
  if m = ['N', 'O', 'P'] then if rest = [] then some .nop else none
  else if m = ['E', 'D', 'G', 'E'] then twoNamed ['l', 'v', 'l'] ['e', 'l'] .edge rest
  else if m = ['T', 'I', 'C', 'K'] then oneNamed ['l', 'v', 'l'] .tick rest
  else if m = ['I', 'N', 'I', 'T'] then if rest = [] then some .init else none
  else if m = ['S', 'E', 'T', 'C', 'B'] then twoNamed ['e', 'n'] ['c', 't', 'x'] .setcb rest
  else if m = ['.', 'w', 'o', 'r', 'd'] then oneNumber .word rest
  else if m = ['R', 'I', 'S', 'E'] then if rest = [] then some (.rise 0) else oneNumber .rise rest
  else if m = ['F', 'A', 'L', 'L'] then oneNumber .fall rest
  else if m = ['S', 'A', 'M', 'P', 'L', 'E'] then oneNumber .sample rest
  else if m = ['U', 'N', 'I', 'T'] then oneNumber .unit rest
  else if m = ['U', 'N', 'I', 'T', 'S'] then
    match rest with
    | [.quote, .quote] => some (.units [])
    | [.quote, .text s, .quote] => (readBits s).map .units
    | _ => none
  else if m = ['H', 'K'] then oneNumber .hk rest
  else if m = ['H', 'E', 'A', 'D', 'E', 'R'] then
    match rest with
    | [.text p, .comma, .text g] =>
      match readNumber p, readNumber g with
      | some p, some g => some (.header p g)
      | _, _ => none
    | _ => none
  else if m = ['N', 'E', 'C', 'D', 'A', 'T', 'A'] then
    match rest with
    | [.text a, .comma, .text c, .comma, .text i] =>
      match readNumber a, readNumber c, readNumber i with
      | some a, some c, some i => some (.necdata a c i)
      | _, _, _ => none
    | _ => none
  else none

/-- The words of one line of text; a line without tokens has none (30_encoding.md R93). -/
def assembleLine (line : List Char) : Except AsmError (List Word) :=
  match lexLine line [] with
  | [] => .ok []
  | .text m :: rest =>
    match readLine m rest with
    | some l => AsmLine.words l
    | none => .error .badLine
  | _ => .error .badLine

/-- The words of a text, one event a line (30_encoding.md R93); `line` holds the characters of the line so far in
reverse. -/
def assembleText : List Char → List Char → Except AsmError (List Word)
  | [], line => assembleLine line.reverse
  | c :: cs, line =>
    if c = '\n' then
      match assembleLine line.reverse, assembleText cs [] with
      | .ok a, .ok b => .ok (a ++ b)
      | .error e, _ => .error e
      | _, .error e => .error e
    else assembleText cs (c :: line)

end Sys2Proof.Machine
end

