-- ==== Sys2Proof/Machine/Collaborators.lean ====
section
/-! DEFINITION. The two external collaborators, as the contracts at their interface give them: the timer
(60_exceptions.md R251) and the input pin (R252). They are no part of the block's state (10_state.md R44): they stand beside
it in `System`, the block with an environment that honours both contracts. Nothing in `step` uses this file (log entry 9). -/

namespace Sys2Proof.Machine

/-- What the timer is doing (10_state.md R44). -/
inductive TimerMode where
  | stopped
  | oneShot (n : Ticks)
  | continuous (n : Ticks)
deriving DecidableEq, Repr

/-- The timer: its mode, the ticks counted since the last start command, and the expiries due and not yet presented. -/
structure Timer where
  mode : TimerMode
  count : Nat
  due : Nat
deriving DecidableEq, Repr

/-- How the timer reacts to an action of the block (60_exceptions.md R251). -/
def Timer.apply (t : Timer) : Action → Timer
  | .tmrConfig => ⟨.stopped, 0, 0⟩
  | .tmrOneShot n => ⟨.oneShot n, 0, 0⟩
  | .tmrContinuous n => ⟨.continuous n, 0, 0⟩
  | .tmrStop => { t with mode := .stopped, due := 0 }
  | .pinConfig => t
  | .emit _ _ _ _ => t

/-- One tick of time: a one-shot of `n` expires after exactly `n` ticks and is then stopped; a continuous timer of `n`
expires at `n`, `2n`, `3n` and so on; a stopped timer counts nothing (60_exceptions.md R251). A timer started
with 0 ticks, one-shot or continuous, never expires here: what it does the spec leaves open (00_scope.md R9,
70_reset_and_hazards.md R292), and this is the model's choice. DESIGN CHOICE, unsafe; log entry 14. -/
def Timer.tick (t : Timer) : Timer :=
  match t.mode with
  | .stopped => t
  | .oneShot n =>
    if t.count + 1 = n.toNat then ⟨.stopped, t.count + 1, t.due + 1⟩ else { t with count := t.count + 1 }
  | .continuous n =>
    if (t.count + 1) % n.toNat = 0 then ⟨t.mode, t.count + 1, t.due + 1⟩ else { t with count := t.count + 1 }

/-- `n` ticks of time. -/
def Timer.ticks (t : Timer) : Nat → Timer
  | 0 => t
  | n + 1 => (t.ticks n).tick

/-- The `elapsed` operand of an EDGE word: the ticks counted, saturated at `2^32 - 1` (60_exceptions.md R251). -/
def Timer.elapsed (t : Timer) : Ticks := BitVec.ofNat 32 (min t.count (2 ^ 32 - 1))

/-- The input pin: whether its edge interrupts are configured, its level, and the transitions not yet presented. -/
structure Pin where
  configured : Bool
  level : Bool
  edges : Nat
deriving DecidableEq, Repr

/-- How the pin reacts to an action of the block (60_exceptions.md R252). -/
def Pin.apply (p : Pin) : Action → Pin
  | .pinConfig => { p with configured := true }
  | _ => p

/-- A transition of the input line: one EDGE word to present, once the pin is configured (60_exceptions.md R252). -/
def Pin.change (p : Pin) : Pin :=
  { p with level := !p.level, edges := if p.configured then p.edges + 1 else p.edges }

/-- The block with its collaborators. -/
structure System where
  block : State
  timer : Timer
  pin : Pin
deriving DecidableEq, Repr

/-- One step of the block on a word the environment presents; its actions apply to the collaborators at the end of the
step (70_reset_and_hazards.md R286). -/
def System.present (y : System) (w : Word) : Option System :=
  match step (y.block.presentNext w) with
  | .next t => some ⟨t, t.acts.foldl Timer.apply y.timer, t.acts.foldl Pin.apply y.pin⟩
  | .fault _ => none
  | .refused _ => none

/-- The moves of an environment that honours the contracts (60_exceptions.md R247, R254). -/
inductive EnvMove where
  /-- One timer tick of time passes. -/
  | timePasses
  /-- The input line changes its level. -/
  | lineChanges
  /-- A transition is presented as an EDGE word. -/
  | presentEdge
  /-- An expiry is presented as a TICK word. -/
  | presentTick
  /-- The host presents INIT. -/
  | hostInit
  /-- The host presents SETCB. -/
  | hostSetcb (en : Bool) (ctx : Context)
deriving DecidableEq, Repr

/-- A TICK word for an expiry that is due, with the level the handler reads (60_exceptions.md R251). -/
def System.presentTick (y : System) : Option System :=
  if y.timer.due = 0 then none
  else System.present { y with timer := { y.timer with due := y.timer.due - 1 } } (encode (.tick y.pin.level))

/-- An EDGE word for a transition not yet presented, with the level the handler reads and the elapsed ticks
(60_exceptions.md R251, R252). -/
def System.presentEdge (y : System) : Option System :=
  if y.pin.edges = 0 then none
  else System.present { y with pin := { y.pin with edges := y.pin.edges - 1 } }
    (encode (.edge y.pin.level y.timer.elapsed))

/-- One move of the environment; none where the contracts do not allow it. The order of coincident words is the
environment's choice (60_exceptions.md R247). -/
def System.move (y : System) : EnvMove → Option System
  | .timePasses => some { y with timer := y.timer.tick }
  | .lineChanges => some { y with pin := y.pin.change }
  | .presentEdge => y.presentEdge
  | .presentTick => y.presentTick
  | .hostInit => y.present (encode .init)
  | .hostSetcb en ctx => y.present (encode (.setcb en ctx))

/-- One tick of ideal timing while the block samples: a tick of time passes with the line at `lvl`, and an expiry that
falls due is presented at once (42_sampler.md R157). -/
def System.idealTick (y : System) (lvl : Bool) : Option System :=
  let z : System := { y with timer := y.timer.tick, pin := { y.pin with level := lvl } }
  if z.timer.due = 0 then some z else z.presentTick

/-- Ideal timing for `n` ticks, with the line at `line k` at tick `k`, counted from 1 (42_sampler.md R157). -/
def System.idealTicks (y : System) (line : Nat → Bool) : Nat → Option System
  | 0 => some y
  | n + 1 => (y.idealTicks line n).bind fun z => z.idealTick (line (n + 1))

/-- The tick time of sample `k`, counted from the edge that completed synchronization (42_sampler.md R157). -/
def sampleTime (p : Ticks) (k : Nat) : Nat := (measurementShift p).toNat + k * (sampleInterval p).toNat

end Sys2Proof.Machine
end

