-- ==== Sys2Proof/Machine/Ports.lean ====
section
/-! DEFINITION. What the environment sees: the output ports of one step's actions (30_encoding.md R86), the status ports
(10_state.md R43) and the codes of the state variables (30_encoding.md R87). -/

namespace Sys2Proof.Machine

/-- The code of `top`; 3 never occurs (30_encoding.md R87). -/
def Top.code : Top → BitVec 2
  | .synchronizing => 0
  | .receivingCommand => 1
  | .waitRepeat => 2

/-- The Top-level state of a code; the code 3 has none (93_implementation_defined.md I14). -/
def Top.ofCode (c : BitVec 2) : Option Top :=
  if c = 0#2 then some .synchronizing
  else if c = 1#2 then some .receivingCommand
  else if c = 2#2 then some .waitRepeat
  else none

/-- The code of `sync` (30_encoding.md R87). -/
def SyncState.code : SyncState → BitVec 2
  | .waitRise => 0
  | .waitFall => 1
  | .waitRiseEnd => 2
  | .done => 3

/-- The Sync state of a code; every code has one (30_encoding.md R87). -/
def SyncState.ofCode (c : BitVec 2) : SyncState :=
  if c = 0#2 then .waitRise else if c = 1#2 then .waitFall else if c = 2#2 then .waitRiseEnd else .done

/-- The code of `rep` (30_encoding.md R87). -/
def RepeatState.code : RepeatState → BitVec 2
  | .waitRise => 0
  | .waitFall => 1
  | .waitRiseEnd => 2
  | .fault => 3

/-- The Repeat state of a code; every code has one (30_encoding.md R87). -/
def RepeatState.ofCode (c : BitVec 2) : RepeatState :=
  if c = 0#2 then .waitRise else if c = 1#2 then .waitFall else if c = 2#2 then .waitRiseEnd else .fault

/-- The output ports of a hardware realisation (30_encoding.md R86). -/
structure OutputPorts where
  /-- Strobe of `PinConfig`. -/
  pinCfg : Bool
  /-- Strobe of `TmrConfig`. -/
  tmrCfg : Bool
  /-- Strobe of `Emit`, with its four arguments beside it. -/
  evtValid : Bool
  evtCtx : Context
  evtAddr : Address
  evtCmd : Command
  evtRep : Bool
  /-- 0 none, 1 `TmrOneShot`, 2 `TmrContinuous`, 3 `TmrStop`. -/
  tmrCmd : BitVec 2
  /-- The timer argument, 0 unless `tmrCmd` is 1 or 2. -/
  tmrArg : Ticks
deriving DecidableEq, Repr

/-- All ports 0: no action. R280 says so of the ports before the first step (70_reset_and_hazards.md), and 30_encoding.md
R86 of `tmr_cmd`, `tmr_arg` and the strobes of a step without the action. That `evt_ctx`, `evt_addr`, `evt_cmd` and `evt_rep`
are 0 in a step that issues no `Emit` is the model's choice, where R86 says nothing: DESIGN CHOICE, unsafe; log entry 15. -/
def OutputPorts.none : OutputPorts := ⟨false, false, false, 0, 0, 0, false, 0, 0⟩

/-- One action put on the ports of its group (30_encoding.md R86). -/
def OutputPorts.drive (o : OutputPorts) : Action → OutputPorts
  | .pinConfig => { o with pinCfg := true }
  | .tmrConfig => { o with tmrCfg := true }
  | .tmrOneShot n => { o with tmrCmd := 1, tmrArg := n }
  | .tmrContinuous n => { o with tmrCmd := 2, tmrArg := n }
  | .tmrStop => { o with tmrCmd := 3, tmrArg := 0 }
  | .emit ctx addr cmd rep =>
    { o with evtValid := true, evtCtx := ctx, evtAddr := addr, evtCmd := cmd, evtRep := rep }

/-- The ports of an action list. A list of one step has at most one action a group (30_encoding.md R86); of a longer list,
which no step issues, the last of a group stands (log entry 13). -/
def OutputPorts.ofActs (l : List Action) : OutputPorts := l.foldl OutputPorts.drive OutputPorts.none

/-- The port group of an action, numbered in the fixed port order: pin, timer configuration, event, timer command
(30_encoding.md R86). -/
def Action.portGroup : Action → Nat
  | .pinConfig => 0
  | .tmrConfig => 1
  | .emit _ _ _ _ => 2
  | .tmrOneShot _ | .tmrContinuous _ | .tmrStop => 3

/-- The actions a set of ports shows, in the fixed port order (30_encoding.md R86). -/
def OutputPorts.toActs (o : OutputPorts) : List Action :=
  (if o.pinCfg then [.pinConfig] else []) ++
  (if o.tmrCfg then [.tmrConfig] else []) ++
  (if o.evtValid then [.emit o.evtCtx o.evtAddr o.evtCmd o.evtRep] else []) ++
  (if o.tmrCmd = 1#2 then [.tmrOneShot o.tmrArg]
    else if o.tmrCmd = 2#2 then [.tmrContinuous o.tmrArg]
    else if o.tmrCmd = 3#2 then [.tmrStop] else [])

/-- The output ports of the step that left the state (30_encoding.md R86). -/
def State.outputPorts (s : State) : OutputPorts := OutputPorts.ofActs s.acts

/-- The four status fields visible at all times (10_state.md R43). -/
structure StatusPorts where
  lastAddress : Address
  lastCommand : Command
  cmdReceived : Bool
  fault : BitVec 4
deriving DecidableEq, Repr

/-- The status ports (10_state.md R43). -/
def State.status (s : State) : StatusPorts := ⟨s.lastAddress, s.lastCommand, s.cmdReceived, s.fault⟩

end Sys2Proof.Machine
end

