-- ==== Sys2Proof/Safety.lean ====
section
/-! DEFINITION. The terms the claims use: the invariants of reachable states (10_state.md R41), runs and their actions,
quiescence and the end of a run (70_reset_and_hazards.md R294, R295). -/

namespace Sys2Proof.Machine

/-- R41 item 1: `bits_received <= 95` in ReceivingCommand, and 0 otherwise. -/
abbrev BitsInRange (s : State) : Prop :=
  (s.top = .receivingCommand → s.bitsReceived.toNat ≤ 95) ∧ (s.top ≠ .receivingCommand → s.bitsReceived = 0)

/-- R41 item 2: `sample_count <= 2`; `sample_count` and `acc` are 0 outside ReceivingCommand. -/
abbrev SamplesInRange (s : State) : Prop :=
  s.sampleCount.toNat ≤ 2 ∧ (s.top ≠ .receivingCommand → s.sampleCount = 0 ∧ s.acc = 0)

/-- R41 item 3: `sync = Done` if and only if `top != Synchronizing`. -/
abbrev SyncDone (s : State) : Prop := s.sync = .done ↔ s.top ≠ .synchronizing

/-- R41 item 4: `rep = WaitRise` whenever `top != WaitRepeat`. -/
abbrev RepeatDormant (s : State) : Prop := s.top ≠ .waitRepeat → s.rep = .waitRise

/-- R41 item 5: `rearm = 1` only before the first sample of a frame. -/
abbrev RearmOnlyFirst (s : State) : Prop :=
  s.rearm = true → s.top = .receivingCommand ∧ s.bitsReceived = 0 ∧ s.sampleCount = 0

/-- R41 item 6: cells not yet received are 0 in ReceivingCommand; the whole bitmap is 0 in Synchronizing. -/
abbrev RawCleared (s : State) : Prop :=
  (s.top = .receivingCommand → ∀ i, i < 96 → s.bitsReceived.toNat ≤ i → s.raw.getLsbD i = false) ∧
  (s.top = .synchronizing → s.raw = 0)

/-- R41 item 7: in Synchronizing/WaitRise the measurements and the outputs are 0. -/
abbrev ZeroedAtStart (s : State) : Prop :=
  s.top = .synchronizing → s.sync = .waitRise →
    s.measShift = 0 ∧ s.interval = 0 ∧ s.elapsedMs = 0 ∧ s.lastAddress = 0 ∧ s.lastCommand = 0 ∧ s.cmdReceived = false

/-- R41 item 8: `cmd_received = 1` if and only if `top = WaitRepeat`. -/
abbrev ReceivedInWindow (s : State) : Prop := s.cmdReceived = true ↔ s.top = .waitRepeat

/-- R41 item 9: `elapsed_ms <= REPEAT_TIMEOUT_MS` in WaitRepeat, but for the entry value 50 above a smaller timeout. -/
abbrev ElapsedInWindow (s : State) : Prop :=
  s.top = .waitRepeat →
    s.elapsedMs.toNat ≤ s.P.repeatTimeoutMs.toNat ∨ (s.elapsedMs = 50#32 ∧ s.P.repeatTimeoutMs.toNat < 50)

/-- The nine invariants of 10_state.md R41. -/
abbrev RunInvariant (s : State) : Prop :=
  BitsInRange s ∧ SamplesInRange s ∧ SyncDone s ∧ RepeatDormant s ∧ RearmOnlyFirst s ∧ RawCleared s ∧
  ZeroedAtStart s ∧ ReceivedInWindow s ∧ ElapsedInWindow s

/-- After a calibration `interval >= 2` and `meas_shift >= 1`, until the decoder is reset (41_sync.md R133, R136;
00_scope.md R9). -/
abbrev Calibrated (s : State) : Prop :=
  (s.sync = .waitRiseEnd ∨ s.sync = .done) → 2 ≤ s.interval.toNat ∧ 1 ≤ s.measShift.toNat

/-- The accumulator holds only the samples of the raw bit being sampled (42_sampler.md R152, corner cases). -/
abbrev FreshSamples (s : State) : Prop := s.acc.toNat < 2 ^ s.sampleCount.toNat

/-- The premise of a claim about a contract-abiding run: no fault bit set (60_exceptions.md R245). -/
abbrev NoFault (s : State) : Prop := s.fault = 0

/-- A timer command of at least one tick; every other action (30_encoding.md R85). -/
abbrev Action.PositiveTicks : Action → Prop
  | .tmrOneShot n => 1 ≤ n.toNat
  | .tmrContinuous n => 1 ≤ n.toNat
  | .pinConfig | .tmrConfig | .tmrStop | .emit _ _ _ _ => True

/-- Whether an action is a timer action of 70_reset_and_hazards.md R294. -/
def Action.isTimer : Action → Bool
  | .tmrConfig | .tmrOneShot _ | .tmrContinuous _ | .tmrStop => true
  | .pinConfig | .emit _ _ _ _ => false

/-- The last timer action of a history of actions. -/
def lastTimer (h : List Action) : Option Action := (h.filter Action.isTimer).getLast?

/-- The last timer action issued was `TmrStop()`, or none has been issued (70_reset_and_hazards.md R294). -/
abbrev TimerIdle (h : List Action) : Prop := lastTimer h = none ∨ lastTimer h = some .tmrStop

/-- A quiescent state, with the history of actions that led to it (70_reset_and_hazards.md R294). -/
abbrev Quiescent (h : List Action) (s : State) : Prop :=
  s.top = .synchronizing ∧ s.sync = .waitRise ∧ TimerIdle h

/-- `n` steps, with the actions of each appended to the history `h`: every action of a step precedes every action of the
next (20_memory.md R71); none if a step stops. -/
def runTrace : Nat → State → List Action → Option (State × List Action)
  | 0, s, h => some (s, h)
  | n + 1, s, h =>
    match step s with
    | .next t => runTrace n t (h ++ t.acts)
    | .fault _ => none
    | .refused _ => none

/-- The least number of housekeeping ticks that exceeds the timeout, from `e` ms elapsed (44_repeat.md R202,
70_reset_and_hazards.md R294). -/
def ticksToTimeout (P : Params) (e : Nat) : Nat := (P.repeatTimeoutMs.toNat - e) / 10 + 1

/-- The bound of 70_reset_and_hazards.md R294. -/
def quiescenceBound (P : Params) : Nat := max (288 + ticksToTimeout P 50) (ticksToTimeout P 0 + 1)

/-- The deliveries of a history. -/
def emits (h : List Action) : List Action :=
  h.filter fun a => match a with
    | .emit _ _ _ _ => true
    | .pinConfig | .tmrConfig | .tmrOneShot _ | .tmrContinuous _ | .tmrStop => false

/-- What a finished run shows (70_reset_and_hazards.md R295). -/
structure Observation where
  emits : List Action
  status : StatusPorts
deriving DecidableEq, Repr

/-- The observation of a run that ended in `s` with the history `h` (70_reset_and_hazards.md R295). -/
def observe (h : List Action) (s : State) : Observation := ⟨emits h, s.status⟩

/-- A run is over: its state is quiescent and the environment has nothing more to present (70_reset_and_hazards.md R295). -/
abbrev RunOver (h : List Action) (s : State) : Prop := Quiescent h s ∧ s.pending = []

/-- How many of the first `n` bits of `v` are 1 (43_frame_decoder.md R178). -/
def onesIn (v : Nat) (n : Nat) : Nat := ((List.range n).filter fun k => v.testBit k).length

/-- An EDGE whose `elapsed` operand a rule reads: R133/R134, R136/R137, R193/R194 and R196/R197, and no other
(40_dispatch.md R117). -/
abbrev ReadsElapsed (s : State) (lvl : Bool) : Prop :=
  s.initialized = true ∧
  ((s.top = .synchronizing ∧ s.sync = .waitFall ∧ lvl = false) ∨
   (s.top = .synchronizing ∧ s.sync = .waitRiseEnd ∧ lvl = true) ∨
   (s.top = .waitRepeat ∧ s.rep = .waitFall ∧ lvl = false) ∨
   (s.top = .waitRepeat ∧ s.rep = .waitRiseEnd ∧ lvl = true))

/-- The state runs the block with only TICK words left to present. -/
abbrev OnlyTicks (s : State) : Prop := ∀ w ∈ s.pending, ∃ lvl, w = encode (.tick lvl)

end Sys2Proof.Machine
end

