-- ==== Sys2Proof/Certificates/Slice0/Obligations.lean ====
section
/-! DEFINITION. The statements for the provers, from the numbered rules of spec/. Each holds with any fault bits set, which
is more than 60_exceptions.md R245 asks for (log entry 12), and for every parameter record that meets 00_scope.md R9. -/

open Sys2Proof Sys2Proof.Machine

/-! ### Encoding -/

/-- The worked encodings of 30_encoding.md R95, and NOP and INIT of R93; the two illegal words by the model's names
(log entry 11). -/
def Obligations.WorkedEncodingsDecode : Prop :=
  decode 0x0000000000000009#64 = .ok (.edge true 0) ∧
  decode 0x0000000000232801#64 = .ok (.edge false 9000) ∧
  decode 0x0000000000119409#64 = .ok (.edge true 4500) ∧
  decode 0x0000000000000002#64 = .ok (.tick false) ∧
  decode 0x000000000000000A#64 = .ok (.tick true) ∧
  decode 0x00000000C0FFEE0C#64 = .ok (.setcb true 0xC0FFEE) ∧
  decode 0x0000000000000000#64 = .ok .nop ∧
  decode 0x0000000000000003#64 = .ok .init ∧
  decode 0x0000000000000005#64 = .error .reservedOp ∧
  decode 0x0000000000000102#64 = .error .unusedOperand

/-- Every operand value of every instruction survives encoding (30_encoding.md R80, R81, R84). -/
def Obligations.DecodeOfEncodeIsIdentity : Prop := ∀ i : Instr, decode (encode i) = .ok i

/-- A legal word is the encoding of what it decodes to: no other word has that meaning (30_encoding.md R82, R91). -/
def Obligations.EncodeOfDecodeIsIdentity : Prop := ∀ (w : Word) (i : Instr), decode w = .ok i → encode i = w

/-- The opcode map of 30_encoding.md R90: a row selects its instruction, the rows are disjoint, their union is the set of
legal words, and a word that matches no row is illegal. -/
def Obligations.OpcodeMapSelectsTheInstruction : Prop :=
  ∀ w : Word,
    (∀ r ∈ opcodeMap, r.Matches w ↔ ∃ i, decode w = .ok i ∧ i.mnemonic = r.mnemonic) ∧
    (∀ r ∈ opcodeMap, ∀ r' ∈ opcodeMap, r.Matches w → r'.Matches w → r = r') ∧
    ((∃ r ∈ opcodeMap, r.Matches w) ↔ Legal w) ∧
    ((¬∃ r ∈ opcodeMap, r.Matches w) ↔ ∃ e, decode w = .error e)

/-! ### The step -/

/-- A step presents the next word; if it decodes to `i`, the step is `exec i` on the state with the word taken and the
action list empty (40_dispatch.md R110; taking the word from `pending` is the model's, log entries 1 and 6). -/
def Obligations.StepRunsTheDecodedInstruction : Prop :=
  ∀ (s : State) (w : Word) (rest : List Word) (i : Instr), s.pending = w :: rest → decode w = .ok i →
    step s = exec i { s with pending := rest, acts := [] }

/-- An illegal word sets `ILLEGAL_OP`, bit 0, and has no other effect (45_host_ops.md R223), before INIT as well. -/
def Obligations.IllegalWordSetsOnlyIllegalOp : Prop :=
  ∀ (s : State) (w : Word) (rest : List Word), s.pending = w :: rest → ¬Legal w →
    step s = .next { s with pending := rest, acts := [], fault := s.fault ||| 0b0001#4 }

/-- Where the environment presents no word, the block holds its state and shows no action (60_exceptions.md R257, "Between
steps it holds its state indefinitely"); that the model's step may come without a word is the model's, log entry 1. -/
def Obligations.StepWithoutAWordHoldsTheState : Prop :=
  ∀ s : State, s.pending = [] → step s = .next { s with acts := [] }

/-! ### NOP and the host operations -/

/-- NOP on any state returns the same state and no actions (40_dispatch.md R111): through `exec`, and through the step that
presents the all-zero word. -/
def Obligations.NopChangesNothing : Prop :=
  ∀ (s : State) (rest : List Word), exec .nop s = .next s ∧
    step { s with pending := 0#64 :: rest } = .next { s with pending := rest, acts := [] }

/-- INIT in every state: the three actions, the full reset, `initialized`, and `MULTI_INIT` (bit 2) when it was set already;
it has one encoding (45_host_ops.md R220, R221). -/
def Obligations.InitConfiguresAndResets : Prop :=
  (∀ s : State, exec .init s = .next
    { s with
      top := .synchronizing, sync := .waitRise, rep := .waitRise, raw := 0, bitsReceived := 0, acc := 0,
      sampleCount := 0, measShift := 0, interval := 0, rearm := false, elapsedMs := 0, lastAddress := 0,
      lastCommand := 0, cmdReceived := false, initialized := true,
      fault := if s.initialized then s.fault ||| 0b0100#4 else s.fault,
      acts := s.acts ++ [.pinConfig, .tmrConfig, .tmrStop] }) ∧
  ∀ w : Word, decode w = .ok .init ↔ w = 0x0000000000000003#64

/-- SETCB writes `cb_valid` and `cb_ctx` and nothing else, in every state; its words are those of its mask, with `en` in
`w[3]` and `ctx` in `w[39:8]` (45_host_ops.md R222). -/
def Obligations.SetcbInstallsOrRemovesTheConsumer : Prop :=
  (∀ (s : State) (en : Bool) (ctx : Context), exec (.setcb en ctx) s = .next { s with cbValid := en, cbCtx := ctx }) ∧
  ∀ w : Word, w &&& 0xFFFFFF00000000F7#64 = 0x4#64 →
    decode w = .ok (.setcb (w.getLsbD 3) (BitVec.ofNat 32 (w.toNat / 2 ^ 8)))

/-- EDGE and TICK before INIT set `EVENT_BEFORE_INIT`, bit 1, and have no other effect (40_dispatch.md R112, R113;
60_exceptions.md R241). -/
def Obligations.EventBeforeInitIsIgnored : Prop :=
  ∀ (s : State) (lvl : Bool) (el : Ticks), s.initialized = false →
    exec (.edge lvl el) s = .next { s with fault := s.fault ||| 0b0010#4 } ∧
    exec (.tick lvl) s = .next { s with fault := s.fault ||| 0b0010#4 }

/-! ### The synchronization detector -/

/-- The rising edge that starts a header measurement (41_sync.md R131). -/
def Obligations.RisingEdgeStartsTheHeaderPulse : Prop :=
  ∀ (s : State) (el : Ticks), s.initialized = true → s.top = .synchronizing → s.sync = .waitRise →
    exec (.edge true el) s = .next { s with sync := .waitFall, acts := s.acts ++ [.tmrOneShot s.P.syncPulseMax] }

/-- The falling edge that ends the header pulse: above the minimum it calibrates, with the arithmetic of R133 and R141 on
the numbers (three sample intervals a unit are never above `p / 16`, and below it by less than 3 ticks); at or below it the
decoder is reset (41_sync.md R133, R134, R141). -/
def Obligations.HeaderPulseCalibratesOrResets : Prop :=
  ∀ (s : State) (p : Ticks), s.initialized = true → s.top = .synchronizing → s.sync = .waitFall →
    (s.P.syncPulseMin.toNat < p.toNat → ∃ n m : Ticks,
      n.toNat = p.toNat / 16 / 3 ∧ n.toNat = p.toNat / 48 ∧ m.toNat = n.toNat / 2 ∧ m.toNat = p.toNat / 96 ∧
      48 * n.toNat ≤ p.toNat ∧ p.toNat < 48 * (n.toNat + 1) ∧ 2 ≤ n.toNat ∧ 1 ≤ m.toNat ∧
      exec (.edge false p) s = .next
        { s with interval := n, measShift := m, sync := .waitRiseEnd, acts := s.acts ++ [.tmrOneShot s.P.syncGapMax] }) ∧
    (p.toNat ≤ s.P.syncPulseMin.toNat → exec (.edge false p) s = .next s.resetDecoder)

/-- The rising edge that ends the header gap: above the minimum synchronization is complete, at or below it the decoder is
reset (41_sync.md R136, R137). -/
def Obligations.HeaderGapCompletesOrResets : Prop :=
  ∀ (s : State) (g : Ticks), s.initialized = true → s.top = .synchronizing → s.sync = .waitRiseEnd →
    (s.P.syncGapMin.toNat < g.toNat → exec (.edge true g) s = .next
      { s with top := .receivingCommand, sync := .done, rearm := true, acts := s.acts ++ [.tmrOneShot s.measShift] }) ∧
    (g.toNat ≤ s.P.syncGapMin.toNat → exec (.edge true g) s = .next s.resetDecoder)

/-- The edges that do nothing: the other direction in each sub-state, any edge in Done, and any edge while receiving
(41_sync.md R132, R135, R138, R139; 40_dispatch.md R116). -/
def Obligations.OtherEdgesBeforeAFrameAreIgnored : Prop :=
  ∀ (s : State) (el : Ticks), s.initialized = true →
    (s.top = .synchronizing → s.sync = .waitRise → exec (.edge false el) s = .next s) ∧
    (s.top = .synchronizing → s.sync = .waitFall → exec (.edge true el) s = .next s) ∧
    (s.top = .synchronizing → s.sync = .waitRiseEnd → exec (.edge false el) s = .next s) ∧
    (s.top = .synchronizing → s.sync = .done → ∀ lvl, exec (.edge lvl el) s = .next s ∧ exec (.tick lvl) s = .next s) ∧
    (s.top = .receivingCommand → ∀ lvl, exec (.edge lvl el) s = .next s)

/-- A timer expiry while synchronizing: it resets a measurement in progress and is ignored otherwise (41_sync.md R140). -/
def Obligations.ExpiryAbandonsTheHeaderMeasurement : Prop :=
  ∀ (s : State) (lvl : Bool), s.initialized = true → s.top = .synchronizing →
    exec (.tick lvl) s = .next (if s.sync = .waitFall ∨ s.sync = .waitRiseEnd then s.resetDecoder else s)

/-- A header pulse at or below the minimum: whatever rising edges come between its two edges, no state on the way waits for
the header gap, and the last one waits for a new header (41_sync.md R142). -/
def Obligations.ShortHeaderPulseNeverAdvances : Prop :=
  ∀ (s : State) (e : Ticks) (es : List Ticks) (p : Ticks) (rest : List Word),
    s.initialized = true → s.top = .synchronizing → s.sync = .waitRise → p.toNat ≤ s.P.syncPulseMin.toNat →
    s.pending = encode (.edge true e) :: (es.map fun x => encode (.edge true x)) ++ encode (.edge false p) :: rest →
    (∀ n ≤ es.length + 2, ∃ t h, runTrace n s [] = some (t, h) ∧ t.top = .synchronizing ∧ t.sync ≠ .waitRiseEnd) ∧
    ∃ t h, runTrace (es.length + 2) s [] = some (t, h) ∧ t.sync = .waitRise

/-! ### The bit sampler -/

/-- The first and the second sample of a raw bit; with the rearm flag the same tick starts the sample clock (42_sampler.md
R151, R152). -/
def Obligations.SamplingTickAccumulates : Prop :=
  ∀ (s : State) (lvl : Bool), s.initialized = true → s.top = .receivingCommand → s.sampleCount.toNat < 2 →
    ∃ (a : BitVec 32) (c : BitVec 2),
      a.toNat = (2 * s.acc.toNat + lvl.toNat) % 2 ^ 32 ∧ c.toNat = s.sampleCount.toNat + 1 ∧
      exec (.tick lvl) s = .next
        { s with
          rearm := false, acc := a, sampleCount := c,
          acts := s.acts ++ (if s.rearm then [.tmrContinuous s.interval] else []) }

/-- The third sample of a raw bit that is not the last of the frame: the AND of the three samples is stored at
`bits_received` and every other cell is kept (42_sampler.md R153). -/
def Obligations.ThirdSampleStoresTheRawBit : Prop :=
  ∀ (s : State) (lvl : Bool), s.initialized = true → s.top = .receivingCommand → s.sampleCount = 2#2 →
    s.bitsReceived.toNat < 95 →
    ∃ (r : RawBitmap) (b : BitVec 8),
      (∀ i, i < 96 → r.getLsbD i =
        if i = s.bitsReceived.toNat then lvl && s.acc.getLsbD 0 && s.acc.getLsbD 1 else s.raw.getLsbD i) ∧
      b.toNat = s.bitsReceived.toNat + 1 ∧
      exec (.tick lvl) s = .next
        { s with
          rearm := false, raw := r, bitsReceived := b, acc := 0, sampleCount := 0,
          acts := s.acts ++ (if s.rearm then [.tmrContinuous s.interval] else []) }

/-- The last sample of a frame: the complete image is decoded; a failure resets the decoder, a success stores the command,
delivers it to the consumer or sets `NO_CONSUMER` (bit 3), and opens the repeat window (42_sampler.md R154, R155;
43_frame_decoder.md R175; 40_dispatch.md R118). `sent` holds the actions before the decode: the rearm's, if it was due. -/
def Obligations.CompleteFrameIsDecodedAndDelivered : Prop :=
  ∀ (s : State) (lvl : Bool) (sent : List Action), s.initialized = true → s.top = .receivingCommand →
    s.sampleCount = 2#2 → s.bitsReceived = 95#8 →
    sent = s.acts ++ (if s.rearm then [.tmrContinuous s.interval] else []) →
    ∃ r : RawBitmap,
      (∀ i, i < 96 → r.getLsbD i =
        if i = 95 then lvl && s.acc.getLsbD 0 && s.acc.getLsbD 1 else s.raw.getLsbD i) ∧
      (decodeFrame s.P.rawOobBit r = none → exec (.tick lvl) s = .next (State.resetDecoder { s with acts := sent })) ∧
      (∀ addr cmd, decodeFrame s.P.rawOobBit r = some (addr, cmd) → exec (.tick lvl) s = .next
        { s with
          top := .waitRepeat, raw := r, bitsReceived := 0, acc := 0, sampleCount := 0, rearm := false,
          elapsedMs := 50, lastAddress := addr, lastCommand := cmd, cmdReceived := true,
          fault := if s.cbValid then s.fault else s.fault ||| 0b1000#4,
          acts := sent ++ (if s.cbValid then [.emit s.cbCtx addr cmd false] else []) ++ [.tmrContinuous s.P.hkTicks] })

/-- Three sampling ticks from the start of a raw bit: it is 1 only if all three samples are, and `bits_received` counts it
(42_sampler.md R153, R156). -/
def Obligations.RawBitIsTheAndOfThreeSamples : Prop :=
  ∀ (s : State) (a b c : Bool), s.initialized = true → s.top = .receivingCommand → s.sampleCount = 0#2 →
    s.bitsReceived.toNat < 95 →
    ∃ t u v, exec (.tick a) s = .next t ∧ exec (.tick b) t = .next u ∧ exec (.tick c) u = .next v ∧
      v.raw.getLsbD s.bitsReceived.toNat = (a && b && c) ∧
      v.bitsReceived.toNat = s.bitsReceived.toNat + 1 ∧ v.sampleCount = 0 ∧ v.acc = 0

/-- TICK answers a next state in every state (00_scope.md R3). From a sample count of 3, where the spec states no new count,
it answers with some count, and goes on as R150 says for that count (42_sampler.md R150, R152; the free value is log entry
3). -/
def Obligations.TickCompletesInEveryState : Prop :=
  (∀ (s : State) (lvl : Bool), ∃ t, exec (.tick lvl) s = .next t) ∧
  ∀ (s : State) (lvl : Bool), s.initialized = true → s.top = .receivingCommand → s.sampleCount = 3#2 →
    ∃ (t : State) (a : BitVec 32) (c : BitVec 2),
      a.toNat = (2 * s.acc.toNat + lvl.toNat) % 2 ^ 32 ∧
      t = { s with
            rearm := false, acc := a, sampleCount := c,
            acts := s.acts ++ (if s.rearm then [.tmrContinuous s.interval] else []) } ∧
      exec (.tick lvl) s = .next (if c = 3#2 then finishRawBit (resolveBit t) else t)

/-- A raw bit with no cell to store it in, in states no run reaches: the bitmap is some bitmap, since 20_memory.md R61
defines no write there (log entry 4), and every other effect of 42_sampler.md R153 happens; past 255 the count of raw bits is
some count as well, and R150 goes on with it. -/
def Obligations.RawBitWithoutACellIsCounted : Prop :=
  ∀ (s : State) (lvl : Bool), s.initialized = true → s.top = .receivingCommand → s.sampleCount = 2#2 →
    96 ≤ s.bitsReceived.toNat →
    ∃ (t : State) (r : RawBitmap) (b : BitVec 8),
      (s.bitsReceived.toNat < 255 → b.toNat = s.bitsReceived.toNat + 1) ∧
      t = { s with
            rearm := false, raw := r, bitsReceived := b, acc := 0, sampleCount := 0,
            acts := s.acts ++ (if s.rearm then [.tmrContinuous s.interval] else []) } ∧
      exec (.tick lvl) s = .next (if s.bitsReceived.toNat < 255 then t else finishRawBit t)

/-! ### The frame decoder -/

/-- `LogicalBit` on the four raw bits at the cursor: the two patterns it accepts, with the value and the advance, and the
four it rejects (43_frame_decoder.md R171, R172). -/
def Obligations.LogicalBitReadsThePulseDistance : Prop :=
  ∀ (oob : Bool) (raw : RawBitmap) (c : Nat) (b₀ b₁ b₂ b₃ : Bool),
    memRead oob raw c = b₀ → memRead oob raw (c + 1) = b₁ → memRead oob raw (c + 2) = b₂ →
    memRead oob raw (c + 3) = b₃ →
    (logicalBit oob raw c = some (false, 2) ↔ (b₀, b₁, b₂) = (true, false, true)) ∧
    (logicalBit oob raw c = some (true, 4) ↔ (b₀, b₁, b₂, b₃) = (true, false, false, false)) ∧
    (logicalBit oob raw c = none ↔
      (b₀, b₁) = (false, false) ∨ (b₀, b₁) = (false, true) ∨ (b₀, b₁) = (true, true) ∨
      (b₀, b₁, b₂, b₃) = (true, false, false, true))

/-- The loop of `Decode()`: it parses 32 logical bits one after the other from raw index 0, each where the one before it
ended, and logical bit `k` is bit `k` of the frame word (43_frame_decoder.md R170, R173; 20_memory.md R65). -/
def Obligations.FrameWordCollectsThirtyTwoLogicalBits : Prop :=
  ∀ (oob : Bool) (raw : RawBitmap) (F : BitVec 32) (n : Nat), parseFrame oob raw = some (F, n) ↔
    ∃ c : Nat → Nat, c 0 = 0 ∧ c 32 = n ∧
      ∀ k < 32, ∃ adv, logicalBit oob raw (c k) = some (F.getLsbD k, adv) ∧ c (k + 1) = c k + adv

/-- `Decode()` accepts exactly the images whose 32 logical bits parse and whose command and inverted command sum to 0xFF;
the sum says that one is the complement of the other, in 8 bits as well (43_frame_decoder.md R173, R174, R177). -/
def Obligations.DecodeChecksTheCommandAgainstItsInverse : Prop :=
  (∀ (oob : Bool) (raw : RawBitmap) (addr : Address) (cmd : Command), decodeFrame oob raw = some (addr, cmd) ↔
    ∃ F n, parseFrame oob raw = some (F, n) ∧ addr.toNat = F.toNat % 2 ^ 16 ∧
      cmd.toNat = F.toNat / 2 ^ 16 % 2 ^ 8 ∧ cmd.toNat + F.toNat / 2 ^ 24 = 0xFF) ∧
  (∀ cmd inv : Command, (checksumOk cmd inv = true ↔ inv = ~~~cmd) ∧ (checksumOk cmd inv = true ↔ cmd + inv = 0xFF#8))

/-- A parse that succeeds has used `64 + 2 * n1` raw units for the `n1` ones among its 32 logical bits, and with
RAW_OOB_BIT = 1 they lie inside the bitmap (43_frame_decoder.md R178). -/
def Obligations.ParsedFrameUsesUnitsByItsOnes : Prop :=
  ∀ (oob : Bool) (raw : RawBitmap) (F : BitVec 32) (n : Nat), parseFrame oob raw = some (F, n) →
    n = 64 + 2 * onesIn F.toNat 32 ∧ (oob = true → n ≤ 96)

/-- The round trip of aligned frames: with RAW_OOB_BIT = 1 the units of an address, a command and its complement decode to
that address and command if the address has at most 8 ones, and to nothing otherwise (43_frame_decoder.md R178). -/
def Obligations.AlignedFrameDecodesExactlyWhenItFits : Prop :=
  ∀ (a : Address) (c : Command), decodeFrame true (rawImage (necUnits a c (~~~c))) =
    if onesIn a.toNat 16 ≤ 8 then some (a, c) else none

/-- Raw bits after the 32nd logical bit and its lookahead read, at the final cursor, are never examined
(43_frame_decoder.md R179). -/
def Obligations.CellsAfterTheFrameAreNotExamined : Prop :=
  ∀ (oob : Bool) (raw raw' : RawBitmap) (F : BitVec 32) (n : Nat), parseFrame oob raw = some (F, n) →
    (∀ i ≤ n, memRead oob raw' i = memRead oob raw i) →
    parseFrame oob raw' = some (F, n) ∧ decodeFrame oob raw' = decodeFrame oob raw

/-! ### The repeat-frame detector -/

/-- The rising edge that starts a repeat measurement (44_repeat.md R191). -/
def Obligations.RisingEdgeStartsTheRepeatPulse : Prop :=
  ∀ (s : State) (el : Ticks), s.initialized = true → s.top = .waitRepeat → s.rep = .waitRise →
    exec (.edge true el) s = .next { s with rep := .waitFall, acts := s.acts ++ [.tmrOneShot s.P.repPulseMax] }

/-- The falling edge that ends a repeat pulse: above the minimum the gap is measured, at or below it the Repeat state is
Fault with the housekeeping timer (44_repeat.md R193, R194). -/
def Obligations.RepeatPulseGoesOnOrFails : Prop :=
  ∀ (s : State) (p : Ticks), s.initialized = true → s.top = .waitRepeat → s.rep = .waitFall →
    (s.P.repPulseMin.toNat < p.toNat → exec (.edge false p) s = .next
      { s with rep := .waitRiseEnd, acts := s.acts ++ [.tmrOneShot s.P.repGapMax] }) ∧
    (p.toNat ≤ s.P.repPulseMin.toNat → exec (.edge false p) s = .next
      { s with rep := .fault, acts := s.acts ++ [.tmrContinuous s.P.hkTicks] })

/-- The rising edge that ends a repeat gap: above the minimum the stored command is delivered again, or `NO_CONSUMER`
(bit 3) is set, and the window restarts; at or below it the Repeat state is Fault (44_repeat.md R196, R197; 40_dispatch.md
R118). -/
def Obligations.RepeatGapConfirmsOrFails : Prop :=
  ∀ (s : State) (g : Ticks), s.initialized = true → s.top = .waitRepeat → s.rep = .waitRiseEnd →
    (s.P.repGapMin.toNat < g.toNat → exec (.edge true g) s = .next
      { s with
        rep := .waitRise, elapsedMs := 0, fault := if s.cbValid then s.fault else s.fault ||| 0b1000#4,
        acts := s.acts ++ (if s.cbValid then [.emit s.cbCtx s.lastAddress s.lastCommand true] else []) ++
          [.tmrContinuous s.P.hkTicks] }) ∧
    (g.toNat ≤ s.P.repGapMin.toNat → exec (.edge true g) s = .next
      { s with rep := .fault, acts := s.acts ++ [.tmrContinuous s.P.hkTicks] })

/-- The edges the repeat detector ignores (44_repeat.md R192, R195, R198, R199). -/
def Obligations.OtherEdgesInTheRepeatWindowAreIgnored : Prop :=
  ∀ (s : State) (el : Ticks), s.initialized = true → s.top = .waitRepeat →
    (s.rep = .waitRise → exec (.edge false el) s = .next s) ∧
    (s.rep = .waitFall → exec (.edge true el) s = .next s) ∧
    (s.rep = .waitRiseEnd → exec (.edge false el) s = .next s) ∧
    (s.rep = .fault → ∀ lvl, exec (.edge lvl el) s = .next s)

/-- The housekeeping tick: 10 ms more, or the full reset when the sum exceeds the timeout (44_repeat.md R200). In states with
`elapsed_ms` near 2^32, which no run reaches, the sum is the exact one (log entry 7). -/
def Obligations.HousekeepingTickCountsOrResets : Prop :=
  ∀ (s : State) (lvl : Bool), s.initialized = true → s.top = .waitRepeat → (s.rep = .waitRise ∨ s.rep = .fault) →
    (s.elapsedMs.toNat + 10 ≤ s.P.repeatTimeoutMs.toNat → ∃ e : Millis, e.toNat = s.elapsedMs.toNat + 10 ∧
      exec (.tick lvl) s = .next { s with elapsedMs := e }) ∧
    (s.P.repeatTimeoutMs.toNat < s.elapsedMs.toNat + 10 → exec (.tick lvl) s = .next s.resetDecoder)

/-- The expiry of a repeat one-shot: the Repeat state is Fault, with the housekeeping timer, and `elapsed_ms` is not
advanced (44_repeat.md R201). -/
def Obligations.ExpiryFailsTheRepeatMeasurement : Prop :=
  ∀ (s : State) (lvl : Bool), s.initialized = true → s.top = .waitRepeat → (s.rep = .waitFall ∨ s.rep = .waitRiseEnd) →
    exec (.tick lvl) s = .next { s with rep := .fault, acts := s.acts ++ [.tmrContinuous s.P.hkTicks] }

/-- A step from the repeat window stays in it, with the command it stored, or leaves the decoder reset (44_repeat.md R206;
10_state.md R32, R33). -/
def Obligations.RepeatWindowIsLeftOnlyByReset : Prop :=
  ∀ s t : State, s.top = .waitRepeat → step s = .next t →
    (t.top = .waitRepeat ∧ t.lastAddress = s.lastAddress ∧ t.lastCommand = s.lastCommand ∧
      t.cmdReceived = s.cmdReceived) ∨
    (t.top = .synchronizing ∧ t.sync = .waitRise ∧ t.rep = .waitRise ∧ t.raw = 0 ∧ t.bitsReceived = 0 ∧ t.acc = 0 ∧
      t.sampleCount = 0 ∧ t.measShift = 0 ∧ t.interval = 0 ∧ t.rearm = false ∧ t.elapsedMs = 0 ∧ t.lastAddress = 0 ∧
      t.lastCommand = 0 ∧ t.cmdReceived = false ∧ t.acts.getLast? = some .tmrStop)

/-- With housekeeping ticks only, the window closes on the `n`-th, where `n` is the least integer with
`elapsed_ms + 10 n` above the timeout, and on none before it (44_repeat.md R202). In states with `elapsed_ms` of 2^32 - 10 or
above, which no run reaches, the reset on the first tick rests on the exact sum, the model's own reading (log entry 7). -/
def Obligations.WindowClosesOnTheTickPastTheTimeout : Prop :=
  ∀ (s : State), s.initialized = true → s.top = .waitRepeat → (s.rep = .waitRise ∨ s.rep = .fault) → OnlyTicks s →
    ticksToTimeout s.P s.elapsedMs.toNat ≤ s.pending.length →
    (∀ n < ticksToTimeout s.P s.elapsedMs.toNat, ∃ t, runTrace n s [] = some (t, []) ∧ t.top = .waitRepeat ∧
      t.rep = s.rep ∧ t.elapsedMs.toNat = s.elapsedMs.toNat + 10 * n) ∧
    ∃ t, runTrace (ticksToTimeout s.P s.elapsedMs.toNat) s [] = some (t, [.tmrStop]) ∧ t.top = .synchronizing ∧
      t.sync = .waitRise

/-! ### Reset and boot -/

/-- Power-on reset: every field of 10_state.md R20 is 0, whatever the parameters, and `State.reset` is such a state
(70_reset_and_hazards.md R280); power-on with a record is that state, or the refusal of a record that breaks 00_scope.md R9
(a record kept in the state and a refusal at power-on are the model's form of it, log entry 2). -/
def Obligations.PowerOnZeroesOrRefuses : Prop :=
  (∀ P : LegalParams, powerOn P.val = .next (State.por P)) ∧
  (∀ P : Params, ¬P.Legal → powerOn P = .refused .illegalParams) ∧
  (∃ P : LegalParams, State.reset = State.por P) ∧
  ∀ (P : LegalParams) (s : State), s = State.por P →
    s.top.code = 0 ∧ s.sync.code = 0 ∧ s.rep.code = 0 ∧ s.raw = 0 ∧ s.bitsReceived = 0 ∧ s.acc = 0 ∧
    s.sampleCount = 0 ∧ s.measShift = 0 ∧ s.interval = 0 ∧ s.rearm = false ∧ s.elapsedMs = 0 ∧ s.lastAddress = 0 ∧
    s.lastCommand = 0 ∧ s.cmdReceived = false ∧ s.cbValid = false ∧ s.cbCtx = 0 ∧ s.initialized = false ∧ s.fault = 0 ∧
    s.outputPorts = OutputPorts.none

/-- `ResetDecoder()`: what it zeroes, what it keeps and its one action (70_reset_and_hazards.md R281). -/
def Obligations.ResetDecoderZeroesTheProtocolFields : Prop :=
  ∀ s : State, s.resetDecoder =
    { s with
      top := .synchronizing, sync := .waitRise, rep := .waitRise, raw := 0, bitsReceived := 0, acc := 0,
      sampleCount := 0, measShift := 0, interval := 0, rearm := false, elapsedMs := 0, lastAddress := 0,
      lastCommand := 0, cmdReceived := false, acts := s.acts ++ [.tmrStop] }

/-- Two states that agree on the kept fields reset to one state with the one action; a second reset changes nothing more
(70_reset_and_hazards.md R282). The model's own fields must agree as well: they are no part of the block. -/
def Obligations.ResetForgetsTheProtocolState : Prop :=
  ∀ s s' : State, s.cbValid = s'.cbValid → s.cbCtx = s'.cbCtx → s.initialized = s'.initialized → s.fault = s'.fault →
    s.params = s'.params → s.pending = s'.pending → s.acts = [] → s'.acts = [] →
    s.resetDecoder = s'.resetDecoder ∧ s.resetDecoder.acts = [.tmrStop] ∧
    State.resetDecoder { s.resetDecoder with acts := [] } = s.resetDecoder

/-- The boot sequence, in either order of SETCB and INIT: the operating state, and the actions of INIT
(70_reset_and_hazards.md R284, R285). -/
def Obligations.BootReachesTheOperatingState : Prop :=
  ∀ (P : LegalParams) (ctx : Context),
    runTrace 2 { State.por P with pending := [encode (.setcb true ctx), encode .init] } [] =
      some ({ State.por P with cbValid := true, cbCtx := ctx, initialized := true,
                               acts := [.pinConfig, .tmrConfig, .tmrStop] },
        [.pinConfig, .tmrConfig, .tmrStop]) ∧
    runTrace 2 { State.por P with pending := [encode .init, encode (.setcb true ctx)] } [] =
      some ({ State.por P with cbValid := true, cbCtx := ctx, initialized := true },
        [.pinConfig, .tmrConfig, .tmrStop])

/-! ### Invariants -/

/-- The invariants of 10_state.md R41, and the two that go with them, hold at power-on reset. -/
def Obligations.ReachableInvariantsHoldAtReset : Prop :=
  ∀ P : LegalParams, (RunInvariant (State.por P) ∧ Calibrated (State.por P) ∧ FreshSamples (State.por P)) ∧
    RunInvariant State.reset ∧ Calibrated State.reset ∧ FreshSamples State.reset

/-- Every step keeps the nine invariants of 10_state.md R41. -/
def Obligations.StepKeepsTheReachableInvariants : Prop :=
  ∀ s t : State, RunInvariant s → step s = .next t → RunInvariant t

/-- Every step keeps the calibration that makes every timer command positive (41_sync.md R133, R136), and, among states
that meet R41, an accumulator of fresh samples only (42_sampler.md R152). -/
def Obligations.StepKeepsCalibrationAndFreshSamples : Prop :=
  ∀ s t : State, step s = .next t →
    (Calibrated s → Calibrated t) ∧ (RunInvariant s → FreshSamples s → FreshSamples t)

/-- No step stops: from every state, also one no run reaches, the step answers a next state (60_exceptions.md R240). -/
def Obligations.NoStepStopsTheBlock : Prop := ∀ s : State, ∃ t, step s = .next t

/-- A step is a total function of the parameters, the record and the word presented (00_scope.md R3): one state and one action
list for each, whatever words come later and whatever the step before did. -/
def Obligations.StepIsATotalFunctionOfStateAndWord : Prop :=
  ∀ (s : State) (w : Word), ∃ t : State, ∀ (rest : List Word) (acts : List Action),
    step { s with pending := w :: rest, acts := acts } = .next { t with pending := rest }

/-- Every timer command the block issues is of at least one tick (30_encoding.md R85, 70_reset_and_hazards.md R292). -/
def Obligations.TimerCommandsArePositive : Prop :=
  ∀ s t : State, RunInvariant s → Calibrated s → step s = .next t → ∀ a ∈ t.acts, a.PositiveTicks

/-- A step issues at most one action of each port group, in the fixed port order, so the output ports show exactly its
action list (30_encoding.md R86, 20_memory.md R71). -/
def Obligations.ActionsFitTheOutputPorts : Prop :=
  ∀ s t : State, RunInvariant s → step s = .next t →
    t.acts.Pairwise (fun a b => a.portGroup < b.portGroup) ∧ t.outputPorts.toActs = t.acts

/-- A step sets at most one fault bit and clears none (60_exceptions.md R242, R243). -/
def Obligations.AtMostOneFaultBitIsSetAndNoneCleared : Prop :=
  ∀ s t : State, step s = .next t →
    (t.fault = s.fault ∨ ∃ f : FaultBit, t.fault = s.fault ||| f.mask) ∧
    ∀ f : FaultBit, s.hasFault f = true → t.hasFault f = true

/-- The block behaves the same with any fault bits set: only the register itself may differ (60_exceptions.md R243). -/
def Obligations.FaultBitsHaveNoEffect : Prop :=
  ∀ (s t : State) (g : BitVec 4), step s = .next t →
    ∃ f : BitVec 4, step { s with fault := g } = .next { t with fault := f } ∧ f &&& g = g

/-- The `elapsed` operand is read by four rules only, and the level of a TICK while receiving only (40_dispatch.md R117,
R113). -/
def Obligations.OperandsAreReadOnlyWhereARuleSaysSo : Prop :=
  ∀ (s : State) (lvl lvl' : Bool) (el el' : Ticks),
    (¬ReadsElapsed s lvl → exec (.edge lvl el) s = exec (.edge lvl el') s) ∧
    (s.top ≠ .receivingCommand → exec (.tick lvl) s = exec (.tick lvl') s)

/-- Only SETCB writes the registration, only INIT writes `initialized`, and neither is ever undone by another word; no step
writes the parameters (10_state.md R35, R36). -/
def Obligations.RegistrationChangesOnlyByItsOwnWord : Prop :=
  ∀ (s t : State) (w : Word) (rest : List Word), s.pending = w :: rest → step s = .next t →
    ((∀ en ctx, decode w ≠ .ok (.setcb en ctx)) → t.cbValid = s.cbValid ∧ t.cbCtx = s.cbCtx) ∧
    (decode w ≠ .ok .init → t.initialized = s.initialized) ∧
    (s.initialized = true → t.initialized = true) ∧ t.params = s.params ∧ t.pending = rest

/-- The frame of EDGE: an edge resets the decoder or leaves the bitmap, the sampler, the decoded command and the
registration as they were; the measurements change only where the header pulse ends (20_memory.md R61; 10_state.md R20,
column "writers"). -/
def Obligations.EdgeLeavesBitmapAndCommandUnlessItResets : Prop :=
  ∀ (s t : State) (lvl : Bool) (el : Ticks), exec (.edge lvl el) s = .next t →
    t = s.resetDecoder ∨
    ((∀ oob i, memRead oob t.raw i = memRead oob s.raw i) ∧ t.bitsReceived = s.bitsReceived ∧ t.acc = s.acc ∧
      t.sampleCount = s.sampleCount ∧ t.lastAddress = s.lastAddress ∧ t.lastCommand = s.lastCommand ∧
      t.cmdReceived = s.cmdReceived ∧ t.cbValid = s.cbValid ∧ t.cbCtx = s.cbCtx ∧ t.initialized = s.initialized ∧
      t.params = s.params ∧ t.pending = s.pending ∧
      (t.interval = s.interval ∧ t.measShift = s.measShift ∨ s.top = .synchronizing ∧ s.sync = .waitFall ∧ lvl = false) ∧
      (t.elapsedMs = s.elapsedMs ∨ s.top = .waitRepeat ∧ s.rep = .waitRiseEnd ∧ lvl = true))

/-- The frame of TICK: the registration is kept; the bitmap is cleared by a reset, or changes at `bits_received` alone, and
there only while receiving, and not at a first or second sample; the decoded command is kept unless a frame is complete or
the decoder is reset (20_memory.md R60, R61; 10_state.md R20, column "writers"). In states no run reaches, with
`bits_received` of 96 or above, the spec keeps no cell where a raw bit is stored, and a count past 255 may be any (log entry
4). -/
def Obligations.TickChangesTheBitmapOnlyAtTheNextRawBit : Prop :=
  ∀ (s t : State) (lvl : Bool), exec (.tick lvl) s = .next t →
    (t.cbValid = s.cbValid ∧ t.cbCtx = s.cbCtx ∧ t.initialized = s.initialized ∧ t.params = s.params ∧
      t.pending = s.pending) ∧
    ((t.top = .synchronizing ∧ t.sync = .waitRise ∧ t.raw = 0 ∧ t.lastAddress = 0 ∧ t.lastCommand = 0 ∧
        t.cmdReceived = false ∧ t.acts.getLast? = some .tmrStop) ∨
     ((∀ oob i,
        s.bitsReceived.toNat < 96 ∧ i ≠ s.bitsReceived.toNat ∨ s.sampleCount.toNat < 2 ∨ s.top ≠ .receivingCommand →
        memRead oob t.raw i = memRead oob s.raw i) ∧
      t.sync = s.sync ∧ t.interval = s.interval ∧ t.measShift = s.measShift ∧
      (t.lastAddress = s.lastAddress ∧ t.lastCommand = s.lastCommand ∧ t.cmdReceived = s.cmdReceived ∧
          t.fault = s.fault ∨
        s.top = .receivingCommand ∧ (s.bitsReceived = 95#8 ∨ s.bitsReceived = 255#8) ∧ t.top = .waitRepeat ∨
        s.initialized = false ∧ t.fault = s.fault ||| 0b0010#4)))

/-! ### Quiescence -/

/-- In every run, a state that waits for a header has the timer stopped: the premise of the next statement is an invariant
of runs (70_reset_and_hazards.md R294). -/
def Obligations.TimerIsIdleWhileWaitingForAHeader : Prop :=
  ∀ (s t : State) (h : List Action),
    (s.top = .synchronizing → s.sync = .waitRise → TimerIdle h) → step s = .next t →
    t.top = .synchronizing → t.sync = .waitRise → TimerIdle (h ++ t.acts)

/-- Without edges the block reaches a quiescent state within `max(288 + n50, n0 + 1)` TICK words, from every state that
meets the invariants of 10_state.md R41 (70_reset_and_hazards.md R294). -/
def Obligations.QuiescenceWithinTheTickBound : Prop :=
  ∀ (s : State) (h : List Action), RunInvariant s → s.initialized = true → OnlyTicks s →
    quiescenceBound s.P ≤ s.pending.length → (s.top = .synchronizing → s.sync = .waitRise → TimerIdle h) →
    ∃ t h', runTrace (quiescenceBound s.P) s h = some (t, h') ∧ Quiescent h' t

/-! ### The collaborators' contracts -/

/-- The timer contract (60_exceptions.md R251): a one-shot of `n` is due once, after exactly `n` ticks, and then stopped; a
continuous timer of `n` is due at `n`, `2n`, `3n` and so on; a stop cancels what was due; the elapsed reading counts the
ticks since the start. Stopping the count of an expired one-shot is the model's reading, log entry 9. -/
def Obligations.TimerExpiresAsItsContractSays : Prop :=
  ∀ (t : Timer) (n : Ticks) (k : Nat), 1 ≤ n.toNat →
    (((t.apply (.tmrOneShot n)).ticks k).due = if n.toNat ≤ k then 1 else 0) ∧
    (((t.apply (.tmrOneShot n)).ticks k).mode = if n.toNat ≤ k then .stopped else .oneShot n) ∧
    ((t.apply (.tmrOneShot n)).ticks k).elapsed.toNat = min k n.toNat ∧
    ((t.apply (.tmrContinuous n)).ticks k).due = k / n.toNat ∧
    ((t.apply (.tmrContinuous n)).ticks k).elapsed.toNat = min k (2 ^ 32 - 1) ∧
    ((t.apply .tmrStop).ticks k).due = 0

/-- Sample times under ideal timing (42_sampler.md R157): from the edge that completed synchronization, with the one-shot of
`meas_shift` just started, sample `k` is taken at tick `meas_shift + k * interval` and none between, and raw bit `j` is the
AND of the line at the times of samples `3j`, `3j+1` and `3j+2`. -/
def Obligations.SamplesAreTakenAtTheIdealTimes : Prop :=
  ∀ (y : System) (line : Nat → Bool) (p : Ticks) (n : Nat),
    y.block.initialized = true → y.block.top = .receivingCommand → y.block.rearm = true → y.block.bitsReceived = 0 →
    y.block.sampleCount = 0 → y.block.interval = sampleInterval p → y.block.measShift = measurementShift p →
    1 ≤ (measurementShift p).toNat → y.timer = ⟨.oneShot y.block.measShift, 0, 0⟩ →
    (n < sampleTime p 0 → ∃ z, y.idealTicks line n = some z ∧ z.block = y.block) ∧
    ∀ k < 287, sampleTime p k ≤ n → n < sampleTime p (k + 1) →
      ∃ z, y.idealTicks line n = some z ∧ z.block.top = .receivingCommand ∧
        3 * z.block.bitsReceived.toNat + z.block.sampleCount.toNat = k + 1 ∧
        ∀ j, 3 * j + 2 ≤ k → z.block.raw.getLsbD j =
          (line (sampleTime p (3 * j)) && line (sampleTime p (3 * j + 1)) && line (sampleTime p (3 * j + 2)))

/-- Truncation drift (70_reset_and_hazards.md R289, first point): the first sample of unit `j` lies inside the unit exactly
when the sample clock's lag `j * d` is at most `meas_shift`. -/
def Obligations.FirstSampleLiesInItsUnitWhileTheDriftIsSmall : Prop :=
  ∀ (p : Ticks) (U d : ℚ) (j : Nat), 2 ≤ (sampleInterval p).toNat → d = U - 3 * ((sampleInterval p).toNat : ℚ) → 0 ≤ d →
    (((j : ℚ) * U ≤ (sampleTime p (3 * j) : ℚ) ∧ (sampleTime p (3 * j) : ℚ) < ((j : ℚ) + 1) * U) ↔
      (j : ℚ) * d ≤ ((measurementShift p).toNat : ℚ))
end

