-- ==== Sys2Proof/Laws/Encoding.lean ====
section
/-! SUPPORT. The fields of a word made from fields (30_encoding.md R80), and two words with the same fields are one word. -/

namespace Sys2Proof

/-- Every bit of a word made from fields (30_encoding.md R80). -/
theorem Word.getLsbD_ofFields (r1 : BitVec 24) (d : BitVec 32) (r0 : BitVec 4) (l : Bool) (o : BitVec 3) (k : Nat) :
    (Word.ofFields r1 d r0 l o).getLsbD k =
      if k < 3 then o.getLsbD k else if k < 4 then l else if k < 8 then r0.getLsbD (k - 4)
      else if k < 40 then d.getLsbD (k - 8) else r1.getLsbD (k - 40) := by
  have h1 := BitVec.getLsbD_append (x := r1 ++ d ++ r0 ++ BitVec.ofBool l) (y := o) (i := k)
  have h2 := BitVec.getLsbD_append (x := r1 ++ d ++ r0) (y := BitVec.ofBool l) (i := k - 3)
  have h3 := BitVec.getLsbD_append (x := r1 ++ d) (y := r0) (i := k - 3 - 1)
  have h4 := BitVec.getLsbD_append (x := r1) (y := d) (i := k - 3 - 1 - 4)
  have h5 : k - 3 < 1 → k - 3 = 0 := by omega
  refine h1.trans ?_
  rw [h2, h3, h4]
  simp only [Nat.sub_sub, BitVec.getLsbD_ofBool]
  by_cases c1 : k < 3
  · simp [c1]
  by_cases c2 : k < 4
  · simp [c1, c2, show k - 3 = 0 by omega]
  by_cases c3 : k < 8
  · simp [c1, c2, c3, show ¬(k - 3 < 1) by omega, show k - 4 < 4 by omega]
  by_cases c4 : k < 40
  · simp [c1, c2, c3, c4, show ¬(k - 3 < 1) by omega, show ¬(k - 4 < 4) by omega, show k - 8 < 32 by omega]
  · simp [c1, c2, c3, c4, show ¬(k - 3 < 1) by omega, show ¬(k - 4 < 4) by omega, show ¬(k - 8 < 32) by omega]

@[simp] theorem Word.op_ofFields (r1 : BitVec 24) (d : BitVec 32) (r0 : BitVec 4) (l : Bool) (o : BitVec 3) :
    (Word.ofFields r1 d r0 l o).op = o := by
  apply BitVec.eq_of_getLsbD_eq
  intro i hi
  rw [Word.op, BitVec.getLsbD_extractLsb', Word.getLsbD_ofFields]
  simp [hi]

@[simp] theorem Word.lvl_ofFields (r1 : BitVec 24) (d : BitVec 32) (r0 : BitVec 4) (l : Bool) (o : BitVec 3) :
    (Word.ofFields r1 d r0 l o).lvl = l := by
  rw [Word.lvl, Word.getLsbD_ofFields]
  simp

@[simp] theorem Word.rsv0_ofFields (r1 : BitVec 24) (d : BitVec 32) (r0 : BitVec 4) (l : Bool) (o : BitVec 3) :
    (Word.ofFields r1 d r0 l o).rsv0 = r0 := by
  apply BitVec.eq_of_getLsbD_eq
  intro i hi
  rw [Word.rsv0, BitVec.getLsbD_extractLsb', Word.getLsbD_ofFields]
  simp [hi, show ¬(4 + i < 3) by omega, show 4 + i < 8 by omega]

@[simp] theorem Word.data_ofFields (r1 : BitVec 24) (d : BitVec 32) (r0 : BitVec 4) (l : Bool) (o : BitVec 3) :
    (Word.ofFields r1 d r0 l o).data = d := by
  apply BitVec.eq_of_getLsbD_eq
  intro i hi
  rw [Word.data, BitVec.getLsbD_extractLsb', Word.getLsbD_ofFields]
  simp [hi, show ¬(8 + i < 3) by omega, show ¬(8 + i < 4) by omega, show 8 + i < 40 by omega]

@[simp] theorem Word.rsv1_ofFields (r1 : BitVec 24) (d : BitVec 32) (r0 : BitVec 4) (l : Bool) (o : BitVec 3) :
    (Word.ofFields r1 d r0 l o).rsv1 = r1 := by
  apply BitVec.eq_of_getLsbD_eq
  intro i hi
  rw [Word.rsv1, BitVec.getLsbD_extractLsb', Word.getLsbD_ofFields]
  simp [hi, show ¬(40 + i < 3) by omega, show ¬(40 + i < 4) by omega, show ¬(40 + i < 8) by omega]

/-- A word is made from its own five fields: no bit lies outside them (30_encoding.md R80). -/
theorem Word.ofFields_fields (w : Word) : Word.ofFields w.rsv1 w.data w.rsv0 w.lvl w.op = w := by
  apply BitVec.eq_of_getLsbD_eq
  intro k hk
  rw [Word.getLsbD_ofFields, Word.rsv1, Word.data, Word.rsv0, Word.lvl, Word.op]
  simp only [BitVec.getLsbD_extractLsb']
  by_cases c1 : k < 3
  · simp [c1]
  by_cases c2 : k < 4
  · simp [show k = 3 by omega]
  by_cases c3 : k < 8
  · simp [c1, c2, c3, show k - 4 < 4 by omega, show 4 + (k - 4) = k by omega]
  by_cases c4 : k < 40
  · simp [c1, c2, c3, c4, show k - 8 < 32 by omega, show 8 + (k - 8) = k by omega]
  · simp [c1, c2, c3, c4, show k - 40 < 24 by omega, show 40 + (k - 40) = k by omega]

end Sys2Proof
end

