-- ==== Sys2Proof/Laws/Operands.lean ====
section
/-! SUPPORT. The operand computations as numbers and bits: the header calibration (41_sync.md R133, R141), the accumulator
and the vote (42_sampler.md R152, R153). -/

namespace Sys2Proof.Machine

theorem sampleInterval_toNat (p : Ticks) : (sampleInterval p).toNat = p.toNat / 16 / 3 := by simp [sampleInterval]

theorem measurementShift_toNat (p : Ticks) : (measurementShift p).toNat = p.toNat / 16 / 3 / 2 := by
  simp [measurementShift, sampleInterval_toNat]

/-- Bit 0 is the new sample; every other bit is the one below it before (42_sampler.md R152). -/
theorem shiftInSample_getLsbD (acc : BitVec 32) (lvl : Bool) (i : Nat) (hi : i < 32) :
    (shiftInSample acc lvl).getLsbD i = if i = 0 then lvl else acc.getLsbD (i - 1) := by
  unfold shiftInSample
  cases i with
  | zero => simp
  | succ n => simp [hi, show n < 32 by omega]

/-- The accumulator as a number: doubled, plus the new sample (42_sampler.md R152). -/
theorem shiftInSample_toNat (acc : BitVec 32) (lvl : Bool) :
    (shiftInSample acc lvl).toNat = (2 * acc.toNat + lvl.toNat) % 2 ^ 32 := by
  have h : shiftInSample acc lvl = BitVec.ofNat 32 (2 * acc.toNat + lvl.toNat) := by
    apply BitVec.eq_of_getLsbD_eq
    intro i hi
    rw [shiftInSample_getLsbD acc lvl i hi, BitVec.getLsbD_ofNat]
    cases i with
    | zero => cases lvl <;> simp
    | succ n =>
      have : (2 * acc.toNat + lvl.toNat) / 2 = acc.toNat := by cases lvl <;> (simp; try omega)
      simp [hi, Nat.testBit_succ, this, BitVec.getLsbD]
  rw [h, BitVec.toNat_ofNat]

/-- The vote on the accumulator after a third sample: all three samples are 1 (42_sampler.md R153, R156). -/
theorem resolveVote_shiftInSample (acc : BitVec 32) (lvl : Bool) :
    resolveVote (shiftInSample acc lvl) = (lvl && acc.getLsbD 0 && acc.getLsbD 1) := by
  have bit (v : BitVec 32) : resolveVote v = (v.getLsbD 0 && v.getLsbD 1 && v.getLsbD 2) := by
    rw [Bool.eq_iff_iff, resolveVote, beq_iff_eq]
    constructor
    · intro e
      have h0 := congrArg (BitVec.getLsbD · 0) e
      have h1 := congrArg (BitVec.getLsbD · 1) e
      have h2 := congrArg (BitVec.getLsbD · 2) e
      simp only [BitVec.getLsbD_extractLsb'] at h0 h1 h2
      simp_all
    · intro e
      simp only [Bool.and_eq_true] at e
      apply BitVec.eq_of_getLsbD_eq
      intro i hi
      have : i = 0 ∨ i = 1 ∨ i = 2 := by omega
      rcases this with h | h | h <;> subst h <;> simp_all
  rw [bit, shiftInSample_getLsbD _ _ 0 (by omega), shiftInSample_getLsbD _ _ 1 (by omega),
    shiftInSample_getLsbD _ _ 2 (by omega)]
  simp

end Sys2Proof.Machine
end

