-- ==== Sys2Proof/Laws/State.lean ====
section
/-! SUPPORT. What each shared update of the state does to each field: one lemma a field, for simp. -/

namespace Sys2Proof.Machine

/-- The parameters are read through the record the state keeps. -/
@[simp] theorem State.P_eq (s : State) : s.P = s.params.val := rfl

/-! `State.act` -/

@[simp] theorem State.act_top (s : State) (a : Action) : (s.act a).top = s.top := rfl
@[simp] theorem State.act_sync (s : State) (a : Action) : (s.act a).sync = s.sync := rfl
@[simp] theorem State.act_rep (s : State) (a : Action) : (s.act a).rep = s.rep := rfl
@[simp] theorem State.act_raw (s : State) (a : Action) : (s.act a).raw = s.raw := rfl
@[simp] theorem State.act_bitsReceived (s : State) (a : Action) : (s.act a).bitsReceived = s.bitsReceived := rfl
@[simp] theorem State.act_acc (s : State) (a : Action) : (s.act a).acc = s.acc := rfl
@[simp] theorem State.act_sampleCount (s : State) (a : Action) : (s.act a).sampleCount = s.sampleCount := rfl
@[simp] theorem State.act_measShift (s : State) (a : Action) : (s.act a).measShift = s.measShift := rfl
@[simp] theorem State.act_interval (s : State) (a : Action) : (s.act a).interval = s.interval := rfl
@[simp] theorem State.act_rearm (s : State) (a : Action) : (s.act a).rearm = s.rearm := rfl
@[simp] theorem State.act_elapsedMs (s : State) (a : Action) : (s.act a).elapsedMs = s.elapsedMs := rfl
@[simp] theorem State.act_lastAddress (s : State) (a : Action) : (s.act a).lastAddress = s.lastAddress := rfl
@[simp] theorem State.act_lastCommand (s : State) (a : Action) : (s.act a).lastCommand = s.lastCommand := rfl
@[simp] theorem State.act_cmdReceived (s : State) (a : Action) : (s.act a).cmdReceived = s.cmdReceived := rfl
@[simp] theorem State.act_cbValid (s : State) (a : Action) : (s.act a).cbValid = s.cbValid := rfl
@[simp] theorem State.act_cbCtx (s : State) (a : Action) : (s.act a).cbCtx = s.cbCtx := rfl
@[simp] theorem State.act_initialized (s : State) (a : Action) : (s.act a).initialized = s.initialized := rfl
@[simp] theorem State.act_fault (s : State) (a : Action) : (s.act a).fault = s.fault := rfl
@[simp] theorem State.act_params (s : State) (a : Action) : (s.act a).params = s.params := rfl
@[simp] theorem State.act_pending (s : State) (a : Action) : (s.act a).pending = s.pending := rfl
@[simp] theorem State.act_acts (s : State) (a : Action) : (s.act a).acts = s.acts ++ [a] := rfl

/-! `State.raise` -/

@[simp] theorem State.raise_top (s : State) (f : FaultBit) : (s.raise f).top = s.top := rfl
@[simp] theorem State.raise_sync (s : State) (f : FaultBit) : (s.raise f).sync = s.sync := rfl
@[simp] theorem State.raise_rep (s : State) (f : FaultBit) : (s.raise f).rep = s.rep := rfl
@[simp] theorem State.raise_raw (s : State) (f : FaultBit) : (s.raise f).raw = s.raw := rfl
@[simp] theorem State.raise_bitsReceived (s : State) (f : FaultBit) : (s.raise f).bitsReceived = s.bitsReceived := rfl
@[simp] theorem State.raise_acc (s : State) (f : FaultBit) : (s.raise f).acc = s.acc := rfl
@[simp] theorem State.raise_sampleCount (s : State) (f : FaultBit) : (s.raise f).sampleCount = s.sampleCount := rfl
@[simp] theorem State.raise_measShift (s : State) (f : FaultBit) : (s.raise f).measShift = s.measShift := rfl
@[simp] theorem State.raise_interval (s : State) (f : FaultBit) : (s.raise f).interval = s.interval := rfl
@[simp] theorem State.raise_rearm (s : State) (f : FaultBit) : (s.raise f).rearm = s.rearm := rfl
@[simp] theorem State.raise_elapsedMs (s : State) (f : FaultBit) : (s.raise f).elapsedMs = s.elapsedMs := rfl
@[simp] theorem State.raise_lastAddress (s : State) (f : FaultBit) : (s.raise f).lastAddress = s.lastAddress := rfl
@[simp] theorem State.raise_lastCommand (s : State) (f : FaultBit) : (s.raise f).lastCommand = s.lastCommand := rfl
@[simp] theorem State.raise_cmdReceived (s : State) (f : FaultBit) : (s.raise f).cmdReceived = s.cmdReceived := rfl
@[simp] theorem State.raise_cbValid (s : State) (f : FaultBit) : (s.raise f).cbValid = s.cbValid := rfl
@[simp] theorem State.raise_cbCtx (s : State) (f : FaultBit) : (s.raise f).cbCtx = s.cbCtx := rfl
@[simp] theorem State.raise_initialized (s : State) (f : FaultBit) : (s.raise f).initialized = s.initialized := rfl
@[simp] theorem State.raise_fault (s : State) (f : FaultBit) : (s.raise f).fault = s.fault ||| f.mask := rfl
@[simp] theorem State.raise_params (s : State) (f : FaultBit) : (s.raise f).params = s.params := rfl
@[simp] theorem State.raise_pending (s : State) (f : FaultBit) : (s.raise f).pending = s.pending := rfl
@[simp] theorem State.raise_acts (s : State) (f : FaultBit) : (s.raise f).acts = s.acts := rfl

/-! `State.resetDecoder` -/

@[simp] theorem State.resetDecoder_top (s : State) : (s.resetDecoder).top = .synchronizing := rfl
@[simp] theorem State.resetDecoder_sync (s : State) : (s.resetDecoder).sync = .waitRise := rfl
@[simp] theorem State.resetDecoder_rep (s : State) : (s.resetDecoder).rep = .waitRise := rfl
@[simp] theorem State.resetDecoder_raw (s : State) : (s.resetDecoder).raw = 0 := rfl
@[simp] theorem State.resetDecoder_bitsReceived (s : State) : (s.resetDecoder).bitsReceived = 0 := rfl
@[simp] theorem State.resetDecoder_acc (s : State) : (s.resetDecoder).acc = 0 := rfl
@[simp] theorem State.resetDecoder_sampleCount (s : State) : (s.resetDecoder).sampleCount = 0 := rfl
@[simp] theorem State.resetDecoder_measShift (s : State) : (s.resetDecoder).measShift = 0 := rfl
@[simp] theorem State.resetDecoder_interval (s : State) : (s.resetDecoder).interval = 0 := rfl
@[simp] theorem State.resetDecoder_rearm (s : State) : (s.resetDecoder).rearm = false := rfl
@[simp] theorem State.resetDecoder_elapsedMs (s : State) : (s.resetDecoder).elapsedMs = 0 := rfl
@[simp] theorem State.resetDecoder_lastAddress (s : State) : (s.resetDecoder).lastAddress = 0 := rfl
@[simp] theorem State.resetDecoder_lastCommand (s : State) : (s.resetDecoder).lastCommand = 0 := rfl
@[simp] theorem State.resetDecoder_cmdReceived (s : State) : (s.resetDecoder).cmdReceived = false := rfl
@[simp] theorem State.resetDecoder_cbValid (s : State) : (s.resetDecoder).cbValid = s.cbValid := rfl
@[simp] theorem State.resetDecoder_cbCtx (s : State) : (s.resetDecoder).cbCtx = s.cbCtx := rfl
@[simp] theorem State.resetDecoder_initialized (s : State) : (s.resetDecoder).initialized = s.initialized := rfl
@[simp] theorem State.resetDecoder_fault (s : State) : (s.resetDecoder).fault = s.fault := rfl
@[simp] theorem State.resetDecoder_params (s : State) : (s.resetDecoder).params = s.params := rfl
@[simp] theorem State.resetDecoder_pending (s : State) : (s.resetDecoder).pending = s.pending := rfl
@[simp] theorem State.resetDecoder_acts (s : State) : (s.resetDecoder).acts = s.acts ++ [.tmrStop] := rfl

/-! `State.deliver` -/

@[simp] theorem State.deliver_top (s : State) (a : Address) (c : Command) (r : Bool) : (s.deliver a c r).top = s.top := by
  unfold State.deliver; split <;> rfl
@[simp] theorem State.deliver_sync (s : State) (a : Address) (c : Command) (r : Bool) : (s.deliver a c r).sync = s.sync := by
  unfold State.deliver; split <;> rfl
@[simp] theorem State.deliver_rep (s : State) (a : Address) (c : Command) (r : Bool) : (s.deliver a c r).rep = s.rep := by
  unfold State.deliver; split <;> rfl
@[simp] theorem State.deliver_raw (s : State) (a : Address) (c : Command) (r : Bool) : (s.deliver a c r).raw = s.raw := by
  unfold State.deliver; split <;> rfl
@[simp] theorem State.deliver_bitsReceived (s : State) (a : Address) (c : Command) (r : Bool) : (s.deliver a c r).bitsReceived = s.bitsReceived := by
  unfold State.deliver; split <;> rfl
@[simp] theorem State.deliver_acc (s : State) (a : Address) (c : Command) (r : Bool) : (s.deliver a c r).acc = s.acc := by
  unfold State.deliver; split <;> rfl
@[simp] theorem State.deliver_sampleCount (s : State) (a : Address) (c : Command) (r : Bool) : (s.deliver a c r).sampleCount = s.sampleCount := by
  unfold State.deliver; split <;> rfl
@[simp] theorem State.deliver_measShift (s : State) (a : Address) (c : Command) (r : Bool) : (s.deliver a c r).measShift = s.measShift := by
  unfold State.deliver; split <;> rfl
@[simp] theorem State.deliver_interval (s : State) (a : Address) (c : Command) (r : Bool) : (s.deliver a c r).interval = s.interval := by
  unfold State.deliver; split <;> rfl
@[simp] theorem State.deliver_rearm (s : State) (a : Address) (c : Command) (r : Bool) : (s.deliver a c r).rearm = s.rearm := by
  unfold State.deliver; split <;> rfl
@[simp] theorem State.deliver_elapsedMs (s : State) (a : Address) (c : Command) (r : Bool) : (s.deliver a c r).elapsedMs = s.elapsedMs := by
  unfold State.deliver; split <;> rfl
@[simp] theorem State.deliver_lastAddress (s : State) (a : Address) (c : Command) (r : Bool) : (s.deliver a c r).lastAddress = s.lastAddress := by
  unfold State.deliver; split <;> rfl
@[simp] theorem State.deliver_lastCommand (s : State) (a : Address) (c : Command) (r : Bool) : (s.deliver a c r).lastCommand = s.lastCommand := by
  unfold State.deliver; split <;> rfl
@[simp] theorem State.deliver_cmdReceived (s : State) (a : Address) (c : Command) (r : Bool) : (s.deliver a c r).cmdReceived = s.cmdReceived := by
  unfold State.deliver; split <;> rfl
@[simp] theorem State.deliver_cbValid (s : State) (a : Address) (c : Command) (r : Bool) : (s.deliver a c r).cbValid = s.cbValid := by
  unfold State.deliver; split <;> rfl
@[simp] theorem State.deliver_cbCtx (s : State) (a : Address) (c : Command) (r : Bool) : (s.deliver a c r).cbCtx = s.cbCtx := by
  unfold State.deliver; split <;> rfl
@[simp] theorem State.deliver_initialized (s : State) (a : Address) (c : Command) (r : Bool) : (s.deliver a c r).initialized = s.initialized := by
  unfold State.deliver; split <;> rfl
@[simp] theorem State.deliver_fault (s : State) (a : Address) (c : Command) (r : Bool) : (s.deliver a c r).fault = if s.cbValid then s.fault else s.fault ||| FaultBit.noConsumer.mask := by
  unfold State.deliver; split <;> rfl
@[simp] theorem State.deliver_params (s : State) (a : Address) (c : Command) (r : Bool) : (s.deliver a c r).params = s.params := by
  unfold State.deliver; split <;> rfl
@[simp] theorem State.deliver_pending (s : State) (a : Address) (c : Command) (r : Bool) : (s.deliver a c r).pending = s.pending := by
  unfold State.deliver; split <;> rfl
@[simp] theorem State.deliver_acts (s : State) (a : Address) (c : Command) (r : Bool) : (s.deliver a c r).acts = if s.cbValid then s.acts ++ [.emit s.cbCtx a c r] else s.acts := by
  unfold State.deliver; split <;> rfl

/-! `State.startHousekeeping` -/

@[simp] theorem State.startHousekeeping_top (s : State) : (s.startHousekeeping).top = s.top := rfl
@[simp] theorem State.startHousekeeping_sync (s : State) : (s.startHousekeeping).sync = s.sync := rfl
@[simp] theorem State.startHousekeeping_rep (s : State) : (s.startHousekeeping).rep = s.rep := rfl
@[simp] theorem State.startHousekeeping_raw (s : State) : (s.startHousekeeping).raw = s.raw := rfl
@[simp] theorem State.startHousekeeping_bitsReceived (s : State) : (s.startHousekeeping).bitsReceived = s.bitsReceived := rfl
@[simp] theorem State.startHousekeeping_acc (s : State) : (s.startHousekeeping).acc = s.acc := rfl
@[simp] theorem State.startHousekeeping_sampleCount (s : State) : (s.startHousekeeping).sampleCount = s.sampleCount := rfl
@[simp] theorem State.startHousekeeping_measShift (s : State) : (s.startHousekeeping).measShift = s.measShift := rfl
@[simp] theorem State.startHousekeeping_interval (s : State) : (s.startHousekeeping).interval = s.interval := rfl
@[simp] theorem State.startHousekeeping_rearm (s : State) : (s.startHousekeeping).rearm = s.rearm := rfl
@[simp] theorem State.startHousekeeping_elapsedMs (s : State) : (s.startHousekeeping).elapsedMs = s.elapsedMs := rfl
@[simp] theorem State.startHousekeeping_lastAddress (s : State) : (s.startHousekeeping).lastAddress = s.lastAddress := rfl
@[simp] theorem State.startHousekeeping_lastCommand (s : State) : (s.startHousekeeping).lastCommand = s.lastCommand := rfl
@[simp] theorem State.startHousekeeping_cmdReceived (s : State) : (s.startHousekeeping).cmdReceived = s.cmdReceived := rfl
@[simp] theorem State.startHousekeeping_cbValid (s : State) : (s.startHousekeeping).cbValid = s.cbValid := rfl
@[simp] theorem State.startHousekeeping_cbCtx (s : State) : (s.startHousekeeping).cbCtx = s.cbCtx := rfl
@[simp] theorem State.startHousekeeping_initialized (s : State) : (s.startHousekeeping).initialized = s.initialized := rfl
@[simp] theorem State.startHousekeeping_fault (s : State) : (s.startHousekeeping).fault = s.fault := rfl
@[simp] theorem State.startHousekeeping_params (s : State) : (s.startHousekeeping).params = s.params := rfl
@[simp] theorem State.startHousekeeping_pending (s : State) : (s.startHousekeeping).pending = s.pending := rfl
@[simp] theorem State.startHousekeeping_acts (s : State) : (s.startHousekeeping).acts = s.acts ++ [.tmrContinuous s.params.val.hkTicks] := rfl

/-! `State.eventBeforeInit` -/

@[simp] theorem State.eventBeforeInit_top (s : State) : (s.eventBeforeInit).top = s.top := rfl
@[simp] theorem State.eventBeforeInit_sync (s : State) : (s.eventBeforeInit).sync = s.sync := rfl
@[simp] theorem State.eventBeforeInit_rep (s : State) : (s.eventBeforeInit).rep = s.rep := rfl
@[simp] theorem State.eventBeforeInit_raw (s : State) : (s.eventBeforeInit).raw = s.raw := rfl
@[simp] theorem State.eventBeforeInit_bitsReceived (s : State) : (s.eventBeforeInit).bitsReceived = s.bitsReceived := rfl
@[simp] theorem State.eventBeforeInit_acc (s : State) : (s.eventBeforeInit).acc = s.acc := rfl
@[simp] theorem State.eventBeforeInit_sampleCount (s : State) : (s.eventBeforeInit).sampleCount = s.sampleCount := rfl
@[simp] theorem State.eventBeforeInit_measShift (s : State) : (s.eventBeforeInit).measShift = s.measShift := rfl
@[simp] theorem State.eventBeforeInit_interval (s : State) : (s.eventBeforeInit).interval = s.interval := rfl
@[simp] theorem State.eventBeforeInit_rearm (s : State) : (s.eventBeforeInit).rearm = s.rearm := rfl
@[simp] theorem State.eventBeforeInit_elapsedMs (s : State) : (s.eventBeforeInit).elapsedMs = s.elapsedMs := rfl
@[simp] theorem State.eventBeforeInit_lastAddress (s : State) : (s.eventBeforeInit).lastAddress = s.lastAddress := rfl
@[simp] theorem State.eventBeforeInit_lastCommand (s : State) : (s.eventBeforeInit).lastCommand = s.lastCommand := rfl
@[simp] theorem State.eventBeforeInit_cmdReceived (s : State) : (s.eventBeforeInit).cmdReceived = s.cmdReceived := rfl
@[simp] theorem State.eventBeforeInit_cbValid (s : State) : (s.eventBeforeInit).cbValid = s.cbValid := rfl
@[simp] theorem State.eventBeforeInit_cbCtx (s : State) : (s.eventBeforeInit).cbCtx = s.cbCtx := rfl
@[simp] theorem State.eventBeforeInit_initialized (s : State) : (s.eventBeforeInit).initialized = s.initialized := rfl
@[simp] theorem State.eventBeforeInit_fault (s : State) : (s.eventBeforeInit).fault = s.fault ||| FaultBit.eventBeforeInit.mask := rfl
@[simp] theorem State.eventBeforeInit_params (s : State) : (s.eventBeforeInit).params = s.params := rfl
@[simp] theorem State.eventBeforeInit_pending (s : State) : (s.eventBeforeInit).pending = s.pending := rfl
@[simp] theorem State.eventBeforeInit_acts (s : State) : (s.eventBeforeInit).acts = s.acts := rfl

/-! `State.illegalWord` -/

@[simp] theorem State.illegalWord_top (s : State) : (s.illegalWord).top = s.top := rfl
@[simp] theorem State.illegalWord_sync (s : State) : (s.illegalWord).sync = s.sync := rfl
@[simp] theorem State.illegalWord_rep (s : State) : (s.illegalWord).rep = s.rep := rfl
@[simp] theorem State.illegalWord_raw (s : State) : (s.illegalWord).raw = s.raw := rfl
@[simp] theorem State.illegalWord_bitsReceived (s : State) : (s.illegalWord).bitsReceived = s.bitsReceived := rfl
@[simp] theorem State.illegalWord_acc (s : State) : (s.illegalWord).acc = s.acc := rfl
@[simp] theorem State.illegalWord_sampleCount (s : State) : (s.illegalWord).sampleCount = s.sampleCount := rfl
@[simp] theorem State.illegalWord_measShift (s : State) : (s.illegalWord).measShift = s.measShift := rfl
@[simp] theorem State.illegalWord_interval (s : State) : (s.illegalWord).interval = s.interval := rfl
@[simp] theorem State.illegalWord_rearm (s : State) : (s.illegalWord).rearm = s.rearm := rfl
@[simp] theorem State.illegalWord_elapsedMs (s : State) : (s.illegalWord).elapsedMs = s.elapsedMs := rfl
@[simp] theorem State.illegalWord_lastAddress (s : State) : (s.illegalWord).lastAddress = s.lastAddress := rfl
@[simp] theorem State.illegalWord_lastCommand (s : State) : (s.illegalWord).lastCommand = s.lastCommand := rfl
@[simp] theorem State.illegalWord_cmdReceived (s : State) : (s.illegalWord).cmdReceived = s.cmdReceived := rfl
@[simp] theorem State.illegalWord_cbValid (s : State) : (s.illegalWord).cbValid = s.cbValid := rfl
@[simp] theorem State.illegalWord_cbCtx (s : State) : (s.illegalWord).cbCtx = s.cbCtx := rfl
@[simp] theorem State.illegalWord_initialized (s : State) : (s.illegalWord).initialized = s.initialized := rfl
@[simp] theorem State.illegalWord_fault (s : State) : (s.illegalWord).fault = s.fault ||| FaultBit.illegalOp.mask := rfl
@[simp] theorem State.illegalWord_params (s : State) : (s.illegalWord).params = s.params := rfl
@[simp] theorem State.illegalWord_pending (s : State) : (s.illegalWord).pending = s.pending := rfl
@[simp] theorem State.illegalWord_acts (s : State) : (s.illegalWord).acts = s.acts := rfl

/-! `State.idle` -/

@[simp] theorem State.idle_top (s : State) : (s.idle).top = s.top := rfl
@[simp] theorem State.idle_sync (s : State) : (s.idle).sync = s.sync := rfl
@[simp] theorem State.idle_rep (s : State) : (s.idle).rep = s.rep := rfl
@[simp] theorem State.idle_raw (s : State) : (s.idle).raw = s.raw := rfl
@[simp] theorem State.idle_bitsReceived (s : State) : (s.idle).bitsReceived = s.bitsReceived := rfl
@[simp] theorem State.idle_acc (s : State) : (s.idle).acc = s.acc := rfl
@[simp] theorem State.idle_sampleCount (s : State) : (s.idle).sampleCount = s.sampleCount := rfl
@[simp] theorem State.idle_measShift (s : State) : (s.idle).measShift = s.measShift := rfl
@[simp] theorem State.idle_interval (s : State) : (s.idle).interval = s.interval := rfl
@[simp] theorem State.idle_rearm (s : State) : (s.idle).rearm = s.rearm := rfl
@[simp] theorem State.idle_elapsedMs (s : State) : (s.idle).elapsedMs = s.elapsedMs := rfl
@[simp] theorem State.idle_lastAddress (s : State) : (s.idle).lastAddress = s.lastAddress := rfl
@[simp] theorem State.idle_lastCommand (s : State) : (s.idle).lastCommand = s.lastCommand := rfl
@[simp] theorem State.idle_cmdReceived (s : State) : (s.idle).cmdReceived = s.cmdReceived := rfl
@[simp] theorem State.idle_cbValid (s : State) : (s.idle).cbValid = s.cbValid := rfl
@[simp] theorem State.idle_cbCtx (s : State) : (s.idle).cbCtx = s.cbCtx := rfl
@[simp] theorem State.idle_initialized (s : State) : (s.idle).initialized = s.initialized := rfl
@[simp] theorem State.idle_fault (s : State) : (s.idle).fault = s.fault := rfl
@[simp] theorem State.idle_params (s : State) : (s.idle).params = s.params := rfl
@[simp] theorem State.idle_pending (s : State) : (s.idle).pending = s.pending := rfl
@[simp] theorem State.idle_acts (s : State) : (s.idle).acts = [] := rfl

/-! `State.presentNext` -/

@[simp] theorem State.presentNext_top (s : State) (w : Word) : (s.presentNext w).top = s.top := rfl
@[simp] theorem State.presentNext_sync (s : State) (w : Word) : (s.presentNext w).sync = s.sync := rfl
@[simp] theorem State.presentNext_rep (s : State) (w : Word) : (s.presentNext w).rep = s.rep := rfl
@[simp] theorem State.presentNext_raw (s : State) (w : Word) : (s.presentNext w).raw = s.raw := rfl
@[simp] theorem State.presentNext_bitsReceived (s : State) (w : Word) : (s.presentNext w).bitsReceived = s.bitsReceived := rfl
@[simp] theorem State.presentNext_acc (s : State) (w : Word) : (s.presentNext w).acc = s.acc := rfl
@[simp] theorem State.presentNext_sampleCount (s : State) (w : Word) : (s.presentNext w).sampleCount = s.sampleCount := rfl
@[simp] theorem State.presentNext_measShift (s : State) (w : Word) : (s.presentNext w).measShift = s.measShift := rfl
@[simp] theorem State.presentNext_interval (s : State) (w : Word) : (s.presentNext w).interval = s.interval := rfl
@[simp] theorem State.presentNext_rearm (s : State) (w : Word) : (s.presentNext w).rearm = s.rearm := rfl
@[simp] theorem State.presentNext_elapsedMs (s : State) (w : Word) : (s.presentNext w).elapsedMs = s.elapsedMs := rfl
@[simp] theorem State.presentNext_lastAddress (s : State) (w : Word) : (s.presentNext w).lastAddress = s.lastAddress := rfl
@[simp] theorem State.presentNext_lastCommand (s : State) (w : Word) : (s.presentNext w).lastCommand = s.lastCommand := rfl
@[simp] theorem State.presentNext_cmdReceived (s : State) (w : Word) : (s.presentNext w).cmdReceived = s.cmdReceived := rfl
@[simp] theorem State.presentNext_cbValid (s : State) (w : Word) : (s.presentNext w).cbValid = s.cbValid := rfl
@[simp] theorem State.presentNext_cbCtx (s : State) (w : Word) : (s.presentNext w).cbCtx = s.cbCtx := rfl
@[simp] theorem State.presentNext_initialized (s : State) (w : Word) : (s.presentNext w).initialized = s.initialized := rfl
@[simp] theorem State.presentNext_fault (s : State) (w : Word) : (s.presentNext w).fault = s.fault := rfl
@[simp] theorem State.presentNext_params (s : State) (w : Word) : (s.presentNext w).params = s.params := rfl
@[simp] theorem State.presentNext_pending (s : State) (w : Word) : (s.presentNext w).pending = w :: s.pending := rfl
@[simp] theorem State.presentNext_acts (s : State) (w : Word) : (s.presentNext w).acts = s.acts := rfl

/-! `rearmIfSet` -/

@[simp] theorem rearmIfSet_top (s : State) : (rearmIfSet s).top = s.top := by
  unfold rearmIfSet; split <;> simp_all [State.act]
@[simp] theorem rearmIfSet_sync (s : State) : (rearmIfSet s).sync = s.sync := by
  unfold rearmIfSet; split <;> simp_all [State.act]
@[simp] theorem rearmIfSet_rep (s : State) : (rearmIfSet s).rep = s.rep := by
  unfold rearmIfSet; split <;> simp_all [State.act]
@[simp] theorem rearmIfSet_raw (s : State) : (rearmIfSet s).raw = s.raw := by
  unfold rearmIfSet; split <;> simp_all [State.act]
@[simp] theorem rearmIfSet_bitsReceived (s : State) : (rearmIfSet s).bitsReceived = s.bitsReceived := by
  unfold rearmIfSet; split <;> simp_all [State.act]
@[simp] theorem rearmIfSet_acc (s : State) : (rearmIfSet s).acc = s.acc := by
  unfold rearmIfSet; split <;> simp_all [State.act]
@[simp] theorem rearmIfSet_sampleCount (s : State) : (rearmIfSet s).sampleCount = s.sampleCount := by
  unfold rearmIfSet; split <;> simp_all [State.act]
@[simp] theorem rearmIfSet_measShift (s : State) : (rearmIfSet s).measShift = s.measShift := by
  unfold rearmIfSet; split <;> simp_all [State.act]
@[simp] theorem rearmIfSet_interval (s : State) : (rearmIfSet s).interval = s.interval := by
  unfold rearmIfSet; split <;> simp_all [State.act]
@[simp] theorem rearmIfSet_rearm (s : State) : (rearmIfSet s).rearm = false := by
  unfold rearmIfSet; split <;> simp_all [State.act]
@[simp] theorem rearmIfSet_elapsedMs (s : State) : (rearmIfSet s).elapsedMs = s.elapsedMs := by
  unfold rearmIfSet; split <;> simp_all [State.act]
@[simp] theorem rearmIfSet_lastAddress (s : State) : (rearmIfSet s).lastAddress = s.lastAddress := by
  unfold rearmIfSet; split <;> simp_all [State.act]
@[simp] theorem rearmIfSet_lastCommand (s : State) : (rearmIfSet s).lastCommand = s.lastCommand := by
  unfold rearmIfSet; split <;> simp_all [State.act]
@[simp] theorem rearmIfSet_cmdReceived (s : State) : (rearmIfSet s).cmdReceived = s.cmdReceived := by
  unfold rearmIfSet; split <;> simp_all [State.act]
@[simp] theorem rearmIfSet_cbValid (s : State) : (rearmIfSet s).cbValid = s.cbValid := by
  unfold rearmIfSet; split <;> simp_all [State.act]
@[simp] theorem rearmIfSet_cbCtx (s : State) : (rearmIfSet s).cbCtx = s.cbCtx := by
  unfold rearmIfSet; split <;> simp_all [State.act]
@[simp] theorem rearmIfSet_initialized (s : State) : (rearmIfSet s).initialized = s.initialized := by
  unfold rearmIfSet; split <;> simp_all [State.act]
@[simp] theorem rearmIfSet_fault (s : State) : (rearmIfSet s).fault = s.fault := by
  unfold rearmIfSet; split <;> simp_all [State.act]
@[simp] theorem rearmIfSet_params (s : State) : (rearmIfSet s).params = s.params := by
  unfold rearmIfSet; split <;> simp_all [State.act]
@[simp] theorem rearmIfSet_pending (s : State) : (rearmIfSet s).pending = s.pending := by
  unfold rearmIfSet; split <;> simp_all [State.act]
@[simp] theorem rearmIfSet_acts (s : State) : (rearmIfSet s).acts = if s.rearm then s.acts ++ [.tmrContinuous s.interval] else s.acts := by
  unfold rearmIfSet; split <;> simp_all [State.act]

/-! `resolveBit` -/

@[simp] theorem resolveBit_top (s : State) : (resolveBit s).top = s.top := rfl
@[simp] theorem resolveBit_sync (s : State) : (resolveBit s).sync = s.sync := rfl
@[simp] theorem resolveBit_rep (s : State) : (resolveBit s).rep = s.rep := rfl
@[simp] theorem resolveBit_raw (s : State) : (resolveBit s).raw = storeRawBit s := rfl
@[simp] theorem resolveBit_bitsReceived (s : State) : (resolveBit s).bitsReceived = nextBitsReceived s := rfl
@[simp] theorem resolveBit_acc (s : State) : (resolveBit s).acc = 0 := rfl
@[simp] theorem resolveBit_sampleCount (s : State) : (resolveBit s).sampleCount = 0 := rfl
@[simp] theorem resolveBit_measShift (s : State) : (resolveBit s).measShift = s.measShift := rfl
@[simp] theorem resolveBit_interval (s : State) : (resolveBit s).interval = s.interval := rfl
@[simp] theorem resolveBit_rearm (s : State) : (resolveBit s).rearm = s.rearm := rfl
@[simp] theorem resolveBit_elapsedMs (s : State) : (resolveBit s).elapsedMs = s.elapsedMs := rfl
@[simp] theorem resolveBit_lastAddress (s : State) : (resolveBit s).lastAddress = s.lastAddress := rfl
@[simp] theorem resolveBit_lastCommand (s : State) : (resolveBit s).lastCommand = s.lastCommand := rfl
@[simp] theorem resolveBit_cmdReceived (s : State) : (resolveBit s).cmdReceived = s.cmdReceived := rfl
@[simp] theorem resolveBit_cbValid (s : State) : (resolveBit s).cbValid = s.cbValid := rfl
@[simp] theorem resolveBit_cbCtx (s : State) : (resolveBit s).cbCtx = s.cbCtx := rfl
@[simp] theorem resolveBit_initialized (s : State) : (resolveBit s).initialized = s.initialized := rfl
@[simp] theorem resolveBit_fault (s : State) : (resolveBit s).fault = s.fault := rfl
@[simp] theorem resolveBit_params (s : State) : (resolveBit s).params = s.params := rfl
@[simp] theorem resolveBit_pending (s : State) : (resolveBit s).pending = s.pending := rfl
@[simp] theorem resolveBit_acts (s : State) : (resolveBit s).acts = s.acts := rfl

/-! `accumulate` -/

@[simp] theorem accumulate_top (s : State) (lvl : Bool) : (accumulate lvl s).top = s.top := rfl
@[simp] theorem accumulate_sync (s : State) (lvl : Bool) : (accumulate lvl s).sync = s.sync := rfl
@[simp] theorem accumulate_rep (s : State) (lvl : Bool) : (accumulate lvl s).rep = s.rep := rfl
@[simp] theorem accumulate_raw (s : State) (lvl : Bool) : (accumulate lvl s).raw = s.raw := rfl
@[simp] theorem accumulate_bitsReceived (s : State) (lvl : Bool) : (accumulate lvl s).bitsReceived = s.bitsReceived := rfl
@[simp] theorem accumulate_acc (s : State) (lvl : Bool) : (accumulate lvl s).acc = shiftInSample s.acc lvl := rfl
@[simp] theorem accumulate_sampleCount (s : State) (lvl : Bool) : (accumulate lvl s).sampleCount = nextSampleCount lvl s := rfl
@[simp] theorem accumulate_measShift (s : State) (lvl : Bool) : (accumulate lvl s).measShift = s.measShift := rfl
@[simp] theorem accumulate_interval (s : State) (lvl : Bool) : (accumulate lvl s).interval = s.interval := rfl
@[simp] theorem accumulate_rearm (s : State) (lvl : Bool) : (accumulate lvl s).rearm = s.rearm := rfl
@[simp] theorem accumulate_elapsedMs (s : State) (lvl : Bool) : (accumulate lvl s).elapsedMs = s.elapsedMs := rfl
@[simp] theorem accumulate_lastAddress (s : State) (lvl : Bool) : (accumulate lvl s).lastAddress = s.lastAddress := rfl
@[simp] theorem accumulate_lastCommand (s : State) (lvl : Bool) : (accumulate lvl s).lastCommand = s.lastCommand := rfl
@[simp] theorem accumulate_cmdReceived (s : State) (lvl : Bool) : (accumulate lvl s).cmdReceived = s.cmdReceived := rfl
@[simp] theorem accumulate_cbValid (s : State) (lvl : Bool) : (accumulate lvl s).cbValid = s.cbValid := rfl
@[simp] theorem accumulate_cbCtx (s : State) (lvl : Bool) : (accumulate lvl s).cbCtx = s.cbCtx := rfl
@[simp] theorem accumulate_initialized (s : State) (lvl : Bool) : (accumulate lvl s).initialized = s.initialized := rfl
@[simp] theorem accumulate_fault (s : State) (lvl : Bool) : (accumulate lvl s).fault = s.fault := rfl
@[simp] theorem accumulate_params (s : State) (lvl : Bool) : (accumulate lvl s).params = s.params := rfl
@[simp] theorem accumulate_pending (s : State) (lvl : Bool) : (accumulate lvl s).pending = s.pending := rfl
@[simp] theorem accumulate_acts (s : State) (lvl : Bool) : (accumulate lvl s).acts = s.acts := rfl

end Sys2Proof.Machine
end

