-- ==== Sys2Proof/Laws/Ops.lean ====
section
/-! SUPPORT. What each shared operation can do, said once: the bitmap accesses (20_memory.md R61, R62), the delivery
(40_dispatch.md R118), the sampler (42_sampler.md R150–R155) and the handlers. -/

namespace Sys2Proof.Machine

theorem memRead_inside (oob : Bool) (raw : RawBitmap) (i : Nat) (h : i < 96) : memRead oob raw i = raw.getLsbD i := by
  simp [memRead, h]

theorem memRead_outside (oob : Bool) (raw : RawBitmap) (i : Nat) (h : 96 ≤ i) : memRead oob raw i = oob := by
  simp [memRead, show ¬(i < 96) by omega]

/-- A write answers a bitmap exactly where there is a cell. -/
theorem memWrite_isSome (raw : RawBitmap) (i : Nat) (b : Bool) : (memWrite raw i b).isSome = decide (i < 96) := by
  unfold memWrite; split <;> simp_all

/-- Every cell after a write: the written one holds the bit, the others are as before. -/
theorem memWrite_getLsbD {raw raw' : RawBitmap} {i : Nat} {b : Bool} (h : memWrite raw i b = some raw') (j : Nat) :
    raw'.getLsbD j = if j = i then b else raw.getLsbD j := by
  unfold memWrite at h
  split at h <;> rename_i hi
  · cases h
    by_cases hj : j < 96
    · by_cases hji : j = i
      · subst hji; cases b <;> simp [hj]
      · cases b <;> simp [hji, hj]
    · rw [BitVec.getLsbD_of_ge _ _ (by omega), BitVec.getLsbD_of_ge raw _ (by omega), if_neg (by omega)]
  · cases h

/-- The read of any index after a write (20_memory.md R61, R62). -/
theorem memRead_memWrite {raw raw' : RawBitmap} {i : Nat} {b : Bool} (h : memWrite raw i b = some raw') (oob : Bool)
    (j : Nat) : memRead oob raw' j = if j = i then b else memRead oob raw j := by
  have hi : i < 96 := by
    have := memWrite_isSome raw i b
    rw [h] at this
    simpa using this.symm
  unfold memRead
  rw [memWrite_getLsbD h]
  by_cases hj : j < 96
  · simp [hj]
  · simp [hj, show ¬(j = i) by omega]

/-- Adding one sample, in the counts that fit (42_sampler.md R152). -/
theorem nextSampleCount_eq {s : State} (lvl : Bool) (h : s.sampleCount ≠ 3#2) :
    nextSampleCount lvl s = s.sampleCount + 1#2 := if_neg h

/-- Counting a raw bit, in the counts that fit (42_sampler.md R153). -/
theorem nextBitsReceived_eq {s : State} (h : s.bitsReceived ≠ 255#8) : nextBitsReceived s = s.bitsReceived + 1#8 :=
  if_neg h

/-- Where the bitmap has a cell at `bits_received`, it then holds the resolved bit, and every other cell is as before
(42_sampler.md R153, 20_memory.md R61). -/
theorem storeRawBit_getLsbD {s : State} (h : s.bitsReceived.toNat < 96) (j : Nat) :
    (storeRawBit s).getLsbD j = if j = s.bitsReceived.toNat then resolveVote s.acc else s.raw.getLsbD j := by
  have hs := memWrite_isSome s.raw s.bitsReceived.toNat (resolveVote s.acc)
  unfold storeRawBit
  split
  · rename_i raw hraw
    exact memWrite_getLsbD hraw j
  · rename_i hnone
    simp [hnone, h] at hs

/-- The words to come are no part of what a free value may depend on. -/
@[simp] theorem State.visible_pending (s : State) (l : List Word) :
    State.visible { s with pending := l } = s.visible := rfl

/-- The fault register is no part of what a free value may depend on. -/
@[simp] theorem State.visible_fault (s : State) (f : BitVec 4) : State.visible { s with fault := f } = s.visible := rfl

/-- A complete frame resets the decoder or enters the repeat window with the delivered command (42_sampler.md R154,
R155). -/
theorem frameComplete_cases (s : State) :
    (decodeFrame s.P.rawOobBit s.raw = none ∧ frameComplete s = s.resetDecoder) ∨
    ∃ addr cmd, decodeFrame s.P.rawOobBit s.raw = some (addr, cmd) ∧
      frameComplete s = enterWaitRepeat (storeAndDeliver addr cmd s) := by
  unfold frameComplete
  split
  · rename_i h; exact .inl ⟨h, rfl⟩
  · rename_i a c h; exact .inr ⟨a, c, h, rfl⟩

/-- The end of a raw bit: it is the 96th and the frame is complete, or nothing more happens (42_sampler.md R150). -/
theorem finishRawBit_cases (s : State) :
    (s.bitsReceived ≠ 96#8 ∧ finishRawBit s = s) ∨ (s.bitsReceived = 96#8 ∧ finishRawBit s = frameComplete s) := by
  unfold finishRawBit
  by_cases h : s.bitsReceived = 96#8 <;> simp [h]

/-- A sampling tick: the sample is the first or second of its raw bit, or it resolves the bit (42_sampler.md R150). -/
theorem sampleTick_cases (lvl : Bool) (s : State) :
    let t := accumulate lvl (rearmIfSet s)
    (t.sampleCount ≠ 3#2 ∧ sampleTick lvl s = t) ∨
    (t.sampleCount = 3#2 ∧ sampleTick lvl s = finishRawBit (resolveBit t)) := by
  by_cases h : (accumulate lvl (rearmIfSet s)).sampleCount = 3#2
  · exact .inr ⟨h, if_pos h⟩
  · exact .inl ⟨h, if_neg h⟩

/-! The words to come are carried along by the sampler, and read by none of it. -/

theorem rearmIfSet_withPending (s : State) (l : List Word) :
    rearmIfSet { s with pending := l } = { rearmIfSet s with pending := l } := by
  unfold rearmIfSet; split <;> simp_all [State.act]

theorem deliver_withPending (s : State) (a : Address) (c : Command) (r : Bool) (l : List Word) :
    State.deliver { s with pending := l } a c r = { s.deliver a c r with pending := l } := by
  unfold State.deliver; split <;> rfl

theorem frameComplete_withPending (s : State) (l : List Word) :
    frameComplete { s with pending := l } = { frameComplete s with pending := l } := by
  unfold frameComplete
  simp only [State.P_eq]
  split
  · rfl
  · rename_i addr cmd _
    have hd := deliver_withPending { s with lastAddress := addr, lastCommand := cmd, cmdReceived := true } addr cmd false l
    exact congrArg enterWaitRepeat hd

theorem sampleTick_withPending (lvl : Bool) (s : State) (l : List Word) :
    sampleTick lvl { s with pending := l } = { sampleTick lvl s with pending := l } := by
  unfold sampleTick
  rw [rearmIfSet_withPending]
  generalize rearmIfSet s = t
  change (if (accumulate lvl t).sampleCount = 3#2 then
      finishRawBit { resolveBit (accumulate lvl t) with pending := l } else _) = _
  unfold finishRawBit
  split
  · rename_i h
    simp only [h, if_true]
    split
    · rw [frameComplete_withPending]
    · rfl
  · rename_i h
    simp only [h, if_false]; rfl

/-- An EDGE that answers a state is ignored before INIT, or one of the three handlers ran (40_dispatch.md R112, R116). -/
theorem execEdge_cases {lvl : Bool} {el : Ticks} {s t : State} (h : execEdge lvl el s = .next t) :
    (s.initialized = false ∧ t = s.eventBeforeInit) ∨
    (s.initialized = true ∧ ((s.top = .synchronizing ∧ t = syncEdge lvl el s) ∨ (s.top = .receivingCommand ∧ t = s) ∨
      (s.top = .waitRepeat ∧ t = repEdge lvl el s))) := by
  unfold execEdge at h
  cases hi : s.initialized <;> cases ht : s.top <;> simp_all

/-- A TICK that answers a state is ignored before INIT, or one of the three handlers ran (40_dispatch.md R113). -/
theorem execTick_cases {lvl : Bool} {s t : State} (h : execTick lvl s = .next t) :
    (s.initialized = false ∧ t = s.eventBeforeInit) ∨
    (s.initialized = true ∧ ((s.top = .synchronizing ∧ t = syncTick s) ∨
      (s.top = .receivingCommand ∧ t = sampleTick lvl s) ∨ (s.top = .waitRepeat ∧ t = repTick s))) := by
  unfold execTick at h
  cases hi : s.initialized <;> cases ht : s.top <;> simp_all

end Sys2Proof.Machine
end

