-- ==== Sys2Proof/Laws/PerInstr.lean ====
section
/-! SUPPORT. Facts about every instruction, one lemma a constructor: the word of an instruction is legal, and its `op`
field is the one 30_encoding.md R81 gives the instruction. -/

namespace Sys2Proof.Laws.EncodesLegally

/-- The `op` value of an instruction (30_encoding.md R81). -/
def opOf : Instr → BitVec 3
  | .nop => 0b000
  | .edge _ _ => 0b001
  | .tick _ => 0b010
  | .init => 0b011
  | .setcb _ _ => 0b100

/-- The word of the instruction is legal (30_encoding.md R83) and selects it (R81). -/
def Statement (i : Instr) : Prop := Legal (encode i) ∧ (encode i).op = opOf i

theorem nop : Statement .nop := by simp [Statement, Legal, encode, opOf]

theorem edge (lvl : Bool) (el : Ticks) : Statement (.edge lvl el) := by simp [Statement, Legal, encode, opOf]

theorem tick (lvl : Bool) : Statement (.tick lvl) := by simp [Statement, Legal, encode, opOf]

theorem init : Statement .init := by simp [Statement, Legal, encode, opOf]

theorem setcb (en : Bool) (ctx : Context) : Statement (.setcb en ctx) := by simp [Statement, Legal, encode, opOf]

end Sys2Proof.Laws.EncodesLegally
end

