-- ==== Sys2Proof/Laws/Step.lean ====
section
/-! SUPPORT. What one step can do, said once (40_dispatch.md R110). -/

namespace Sys2Proof.Machine

/-- A step that answers a state: no word was presented, or the word was a legal one and its instruction ran, or the word
was illegal. -/
theorem step_cases {s t : State} (h : step s = .next t) :
    (s.pending = [] ∧ t = s.idle) ∨
    ∃ w rest, s.pending = w :: rest ∧
      ((∃ i, decode w = .ok i ∧ exec i { s with pending := rest, acts := [] } = .next t) ∨
       (∃ r, decode w = .error r ∧ t = State.illegalWord { s with pending := rest, acts := [] })) := by
  unfold step State.takeWord at h
  cases hp : s.pending with
  | nil =>
    rw [hp] at h
    exact .inl ⟨rfl, by simpa using h.symm⟩
  | cons w rest =>
    rw [hp] at h
    refine .inr ⟨w, rest, rfl, ?_⟩
    simp only [stepWord] at h
    split at h
    · rename_i i hi
      exact .inl ⟨i, hi, h⟩
    · rename_i r hr
      exact .inr ⟨r, hr, by simpa using h.symm⟩

end Sys2Proof.Machine
end

