-- ==== Sys2Proof/Tests/Slice0.lean ====
section
/-! SUPPORT. The model's own tests. Expected results come from 95_test_vectors.md, whose vector a test names, or from the
encoding of 30_encoding.md R80 written out by hand. A theorem `witness_<Name>` shows values that meet all hypotheses of the
statement of that name, one for each of its clauses. -/

namespace Sys2Proof.Tests

open Sys2Proof.Machine

/-! ### The base states of 95_test_vectors.md section 2 -/

/-- The example parameters of 92_eei_decisions.md D39, which are not normative. -/
def exampleParams : Params where
  tickHz := 1000000
  hkTicks := 10000
  syncPulseMin := 8000
  syncPulseMax := 10000
  syncGapMin := 4000
  syncGapMax := 5000
  repPulseMin := 7500
  repPulseMax := 9800
  repGapMin := 1800
  repGapMax := 2600
  repeatTimeoutMs := 1200
  rawOobBit := true

def sPor : State := State.por ⟨exampleParams, by decide⟩
def sBoot : State := { sPor with cbValid := true, cbCtx := 0xC0FFEE, initialized := true }
def sWf : State := { sBoot with sync := .waitFall }
def sWre : State := { sBoot with sync := .waitRiseEnd, measShift := 93, interval := 187 }
def sRx0 : State := { sWre with top := .receivingCommand, sync := .done, rearm := true }

/-- Two samples, 1 and 1, of the next raw bit taken. -/
def sRx2 : State := { sRx0 with rearm := false, acc := 3, sampleCount := 2 }

/-- The bitmap of `NECDATA 0x0000, 0x08, 0xF7`. -/
def rawExample : RawBitmap := 0x111114445545555555555#96

/-- S_R95 with two samples of the last raw bit taken. -/
def sR95 : State := { sRx0 with rearm := false, bitsReceived := 95, raw := rawExample, sampleCount := 2 }

def sRep : State :=
  { sWre with
    top := .waitRepeat, sync := .done, raw := rawExample, elapsedMs := 50, lastAddress := 0x0000, lastCommand := 0x08,
    cmdReceived := true }

def sRwf : State := { sRep with rep := .waitFall }
def sRwre : State := { sRep with rep := .waitRiseEnd }
def sRflt : State := { sRep with rep := .fault }

/-- The state with one word to present. -/
def presenting (s : State) (w : Word) : State := { s with pending := [w] }

set_option maxRecDepth 4000 in
/-- The cells of `rawExample` from 95 on are 0. -/
theorem rawExample_tail : ∀ i, i < 96 → 95 ≤ i → rawExample.getLsbD i = false := by decide

/-- The words to present are no part of the invariants. -/
theorem inv_pending {s : State} (l : List Word) (h : RunInvariant s) : RunInvariant { s with pending := l } := h

/-- States of a frame whose cells from `bits_received` on are 0 meet the invariants of R41 where the other fields do. -/
theorem inv_sRx0 : RunInvariant sRx0 :=
  ⟨⟨by decide, by decide⟩, ⟨by decide, by decide⟩, by decide, by decide, by decide,
    ⟨fun _ i _ _ => by simp [sRx0, sWre, sBoot, sPor, State.por], by decide⟩, by decide, by decide, by decide⟩

theorem inv_sR95 : RunInvariant sR95 :=
  ⟨⟨by decide, by decide⟩, ⟨by decide, by decide⟩, by decide, by decide, by decide,
    ⟨fun _ => rawExample_tail, by decide⟩, by decide, by decide, by decide⟩

theorem inv_sRep : RunInvariant sRep :=
  ⟨⟨by decide, by decide⟩, ⟨by decide, by decide⟩, by decide, by decide, by decide,
    ⟨fun h => (nomatch h), by decide⟩, by decide, by decide, fun _ => .inl (by decide)⟩

/-! ### Well-formedness: each check refuses a term that breaks it alone -/

/-- The words of V-ENC-8 to V-ENC-19 break, in turn, every conjunct of R83. -/
theorem test_illegal_words :
    ¬Legal 0x0000000000000008#64 ∧ ¬Legal 0x0000000000000100#64 ∧ ¬Legal 0x0000010000000001#64 ∧
    ¬Legal 0x0000000000000011#64 ∧ ¬Legal 0x0000000000000102#64 ∧ ¬Legal 0x000000000000000B#64 ∧
    ¬Legal 0x0000000000000005#64 ∧ ¬Legal 0x0000000000000006#64 ∧ ¬Legal 0x0000000000000007#64 ∧
    ¬Legal 0x8000000000000001#64 ∧ ¬Legal 0x0000000000000803#64 ∧ ¬Legal 0x00000000000000F0#64 :=
  ⟨by decide, by decide, by decide, by decide, by decide, by decide, by decide, by decide,
   by decide, by decide, by decide, by decide⟩

/-- The decoder refuses the same words, each by its name. -/
theorem test_illegal_words_are_rejected :
    decode 0x0000000000000008#64 = .error .unusedOperand ∧ decode 0x0000000000000100#64 = .error .unusedOperand ∧
    decode 0x0000010000000001#64 = .error .reservedBits ∧ decode 0x0000000000000011#64 = .error .reservedBits ∧
    decode 0x0000000000000102#64 = .error .unusedOperand ∧ decode 0x000000000000000B#64 = .error .unusedOperand ∧
    decode 0x0000000000000005#64 = .error .reservedOp ∧ decode 0x0000000000000006#64 = .error .reservedOp ∧
    decode 0x0000000000000007#64 = .error .reservedOp ∧ decode 0x8000000000000001#64 = .error .reservedBits ∧
    decode 0x0000000000000803#64 = .error .unusedOperand ∧ decode 0x00000000000000F0#64 = .error .reservedBits := by
  decide

/-- Each range check of R93 and R94 refuses the first value past its range. -/
theorem test_operands_out_of_range :
    (AsmLine.edge 2 0).wellFormed = false ∧ (AsmLine.edge 0 (2 ^ 32)).wellFormed = false ∧
    (AsmLine.tick 2).wellFormed = false ∧ (AsmLine.sample 2).wellFormed = false ∧
    (AsmLine.unit 2).wellFormed = false ∧ (AsmLine.setcb 2 0).wellFormed = false ∧
    (AsmLine.setcb 0 (2 ^ 32)).wellFormed = false ∧ (AsmLine.word (2 ^ 64)).wellFormed = false ∧
    (AsmLine.rise (2 ^ 32)).wellFormed = false ∧ (AsmLine.fall (2 ^ 32)).wellFormed = false ∧
    (AsmLine.header (2 ^ 32) 0).wellFormed = false ∧ (AsmLine.header 0 (2 ^ 32)).wellFormed = false ∧
    (AsmLine.necdata (2 ^ 16) 0 0).wellFormed = false ∧ (AsmLine.necdata 0 (2 ^ 8) 0).wellFormed = false ∧
    (AsmLine.necdata 0 0 (2 ^ 8)).wellFormed = false := by decide

/-- Each constraint of R9 refuses the first value past it. -/
theorem test_illegal_parameters :
    ¬Params.Legal { exampleParams with syncPulseMin := 94 } ∧ ¬Params.Legal { exampleParams with syncPulseMax := 0 } ∧
    ¬Params.Legal { exampleParams with syncGapMax := 0 } ∧ ¬Params.Legal { exampleParams with repPulseMax := 0 } ∧
    ¬Params.Legal { exampleParams with repGapMax := 0 } ∧ ¬Params.Legal { exampleParams with hkTicks := 0 } ∧
    ¬Params.Legal { exampleParams with repeatTimeoutMs := 4294967286 } := by decide

/-! ### Decoding: words written out from the fields of R80, the highest first -/

/-- NOP: `op` = 000. -/
theorem test_decode_nop :
    decode (0b000000000000000000000000#24 ++ 0b00000000000000000000000000000000#32 ++ 0b0000#4 ++ 0b0#1 ++ 0b000#3) =
      .ok .nop := by decide

/-- EDGE lvl=1, el=4500 (R95): `op` = 001. -/
theorem test_decode_edge :
    decode (0b000000000000000000000000#24 ++ 0b00000000000000000001000110010100#32 ++ 0b0000#4 ++ 0b1#1 ++ 0b001#3) =
      .ok (.edge true 4500) := by decide

/-- TICK lvl=1: `op` = 010. -/
theorem test_decode_tick :
    decode (0b000000000000000000000000#24 ++ 0b00000000000000000000000000000000#32 ++ 0b0000#4 ++ 0b1#1 ++ 0b010#3) =
      .ok (.tick true) := by decide

/-- INIT: `op` = 011. -/
theorem test_decode_init :
    decode (0b000000000000000000000000#24 ++ 0b00000000000000000000000000000000#32 ++ 0b0000#4 ++ 0b0#1 ++ 0b011#3) =
      .ok .init := by decide

/-- SETCB en=1, ctx=0xC0FFEE (R95): `op` = 100. -/
theorem test_decode_setcb :
    decode (0b000000000000000000000000#24 ++ 0b00000000110000001111111111101110#32 ++ 0b0000#4 ++ 0b1#1 ++ 0b100#3) =
      .ok (.setcb true 0xC0FFEE) := by decide

/-- The operands at the ends of their ranges (V-ENC-2, V-ENC-3, V-ENC-5, V-ENC-6). -/
theorem test_decode_operand_ends :
    decode 0x0000000000000001#64 = .ok (.edge false 0) ∧ decode 0x000000FFFFFFFF09#64 = .ok (.edge true 0xFFFFFFFF) ∧
    decode 0x0000000000000004#64 = .ok (.setcb false 0) ∧
    decode 0x000000FFFFFFFF0C#64 = .ok (.setcb true 0xFFFFFFFF) := by decide

/-- Lines of text against the words of R95: a base form, a pseudo-instruction, and an operand out of range. -/
theorem test_assemble_lines :
    assembleLine ['E', 'D', 'G', 'E', ' ', 'l', 'v', 'l', '=', '0', ',', ' ', 'e', 'l', '=', '9', '0', '0', '0'] =
      .ok [0x232801#64] ∧
    assembleLine ['F', 'A', 'L', 'L', ' ', '9', '0', '0', '0', ' ', ';', 'x'] = .ok [0x232801#64] ∧
    assembleLine ['T', 'I', 'C', 'K', ' ', 'l', 'v', 'l', '=', '2'] = .error .outOfRange := by decide

/-! ### One step of each instruction -/

/-- V-DSP-7. -/
theorem test_nop : exec .nop sBoot = .next sBoot := rfl

/-- V-SYN-4: the shortest header pulse above the minimum, 8001, and its calibration. -/
theorem test_edge_calibrates : exec (.edge false 8001) sWf =
    .next { sWf with sync := .waitRiseEnd, measShift := 83, interval := 166, acts := [.tmrOneShot 5000] } := rfl

/-- V-REP-5: a repeat gap of 2250 delivers the stored command, then starts the housekeeping timer. -/
theorem test_edge_confirms_a_repeat : exec (.edge true 2250) sRwre =
    .next { sRwre with rep := .waitRise, elapsedMs := 0,
                       acts := [.emit 0xC0FFEE 0x0000 0x08 true, .tmrContinuous 10000] } := rfl

/-- V-SMP-1: the first sampling tick starts the sample clock and takes sample 0. -/
theorem test_tick_rearms : exec (.tick true) sRx0 =
    .next { sRx0 with rearm := false, acc := 1, sampleCount := 1, acts := [.tmrContinuous 187] } := rfl

/-- V-SMP-9: the 96th raw bit completes the frame of command 0x08. -/
theorem test_tick_completes_a_frame : exec (.tick false) sR95 =
    .next { sRep with acts := [.emit 0xC0FFEE 0x0000 0x08 false, .tmrContinuous 10000] } := rfl

/-- R220: INIT at power-on. -/
theorem test_init : exec .init sPor =
    .next { sPor with initialized := true, acts := [.pinConfig, .tmrConfig, .tmrStop] } := rfl

/-- R221: a second INIT sets bit 2 and resets all the same. -/
theorem test_init_again : exec .init sRep =
    .next { sBoot with fault := 0b0100, acts := [.pinConfig, .tmrConfig, .tmrStop] } := rfl

/-- R222: the context is stored also when the consumer is removed. -/
theorem test_setcb : exec (.setcb false 7) sBoot = .next { sBoot with cbValid := false, cbCtx := 7 } := rfl

/-- The instruction placed by `withFetchWord` is the first to run after reset: SETCB en=1, ctx=0xC0FFEE. -/
theorem test_first_step_after_reset : step (State.reset.withFetchWord 64 0xC0FFEE0C) =
    .next { State.reset with cbValid := true, cbCtx := 0xC0FFEE } := rfl

/-! ### Witnesses: encoding and the step -/

theorem witness_EncodeOfDecodeIsIdentity : decode 0x0000000000232801#64 = .ok (.edge false 9000) := by decide

theorem witness_OpcodeMapSelectsTheInstruction :
    (∃ r ∈ opcodeMap, r.Matches 0xFFFFFFFF0C#64) ∧ ¬∃ r ∈ opcodeMap, r.Matches 0x0000000000000102#64 := by decide

theorem witness_StepRunsTheDecodedInstruction :
    (presenting sBoot 0x9#64).pending = 0x9#64 :: [] ∧ decode 0x9#64 = .ok (.edge true 0) := by decide

theorem witness_IllegalWordSetsOnlyIllegalOp :
    (presenting sPor 0x102#64).pending = 0x102#64 :: [] ∧ ¬Legal 0x102#64 := by decide

theorem witness_StepWithoutAWordHoldsTheState : State.pending { sBoot with acts := [.tmrStop] } = [] := rfl

/-- Both values of the install flag. -/
theorem witness_SetcbInstallsOrRemovesTheConsumer :
    0xC0FFEE0C#64 &&& 0xFFFFFF00000000F7#64 = 0x4#64 ∧ 0xFFFFFFFF04#64 &&& 0xFFFFFF00000000F7#64 = 0x4#64 := by decide

theorem witness_EventBeforeInitIsIgnored : sPor.initialized = false := rfl

/-! ### Witnesses: the synchronization detector -/

theorem witness_RisingEdgeStartsTheHeaderPulse :
    sBoot.initialized = true ∧ sBoot.top = .synchronizing ∧ sBoot.sync = .waitRise := by decide

/-- The first pulse above the minimum, and the minimum itself. -/
theorem witness_HeaderPulseCalibratesOrResets :
    sWf.initialized = true ∧ sWf.top = .synchronizing ∧ sWf.sync = .waitFall ∧
    sWf.P.syncPulseMin.toNat < (8001#32).toNat ∧ (8000#32).toNat ≤ sWf.P.syncPulseMin.toNat := by decide

/-- The first gap above the minimum, and the minimum itself. -/
theorem witness_HeaderGapCompletesOrResets :
    sWre.initialized = true ∧ sWre.top = .synchronizing ∧ sWre.sync = .waitRiseEnd ∧
    sWre.P.syncGapMin.toNat < (4001#32).toNat ∧ (4000#32).toNat ≤ sWre.P.syncGapMin.toNat := by decide

/-- A state for each of the five clauses. -/
theorem witness_OtherEdgesBeforeAFrameAreIgnored :
    (sBoot.initialized = true ∧ sBoot.top = .synchronizing ∧ sBoot.sync = .waitRise) ∧
    (sWf.initialized = true ∧ sWf.top = .synchronizing ∧ sWf.sync = .waitFall) ∧
    (sWre.initialized = true ∧ sWre.top = .synchronizing ∧ sWre.sync = .waitRiseEnd) ∧
    (∃ s : State, s.initialized = true ∧ s.top = .synchronizing ∧ s.sync = .done) ∧
    (sRx0.initialized = true ∧ sRx0.top = .receivingCommand) :=
  ⟨by decide, by decide, by decide, ⟨{ sBoot with sync := .done }, by decide⟩, by decide⟩

/-- A measurement in progress, and none. -/
theorem witness_ExpiryAbandonsTheHeaderMeasurement :
    (sWf.initialized = true ∧ sWf.top = .synchronizing ∧ sWf.sync = .waitFall) ∧
    (sWre.initialized = true ∧ sWre.top = .synchronizing ∧ sWre.sync = .waitRiseEnd) ∧
    (sBoot.initialized = true ∧ sBoot.top = .synchronizing ∧ sBoot.sync = .waitRise) := by decide

/-- `RISE 0`, one more rising edge, and a pulse of exactly the minimum. -/
theorem witness_ShortHeaderPulseNeverAdvances :
    let s : State := { sBoot with pending := [0x9#64, 0x3209#64, 0x1F4001#64] }
    s.initialized = true ∧ s.top = .synchronizing ∧ s.sync = .waitRise ∧ (8000#32).toNat ≤ s.P.syncPulseMin.toNat ∧
    s.pending = encode (.edge true 0) :: ([50#32].map fun x => encode (.edge true x)) ++
      encode (.edge false 8000) :: [] := by decide

/-! ### Witnesses: the bit sampler -/

/-- The first sample, with the rearm flag, and the second, without it. -/
theorem witness_SamplingTickAccumulates :
    (sRx0.initialized = true ∧ sRx0.top = .receivingCommand ∧ sRx0.sampleCount.toNat < 2 ∧ sRx0.rearm = true) ∧
    ∃ s : State, s.initialized = true ∧ s.top = .receivingCommand ∧ s.sampleCount.toNat < 2 ∧ s.rearm = false :=
  ⟨by decide, { sRx2 with sampleCount := 1 }, by decide⟩

/-- The first raw bit, and the last that does not complete the frame. -/
theorem witness_ThirdSampleStoresTheRawBit :
    (sRx2.initialized = true ∧ sRx2.top = .receivingCommand ∧ sRx2.sampleCount = 2#2 ∧ sRx2.bitsReceived.toNat < 95) ∧
    ∃ s : State, s.initialized = true ∧ s.top = .receivingCommand ∧ s.sampleCount = 2#2 ∧ s.bitsReceived.toNat = 94 :=
  ⟨by decide, { sRx2 with bitsReceived := 94 }, by decide⟩

/-- An image that decodes, and one that does not. -/
theorem witness_CompleteFrameIsDecodedAndDelivered :
    (sR95.initialized = true ∧ sR95.top = .receivingCommand ∧ sR95.sampleCount = 2#2 ∧ sR95.bitsReceived = 95#8) ∧
    decodeFrame sR95.P.rawOobBit rawExample = some (0x0000, 0x08) ∧ decodeFrame sR95.P.rawOobBit 0 = none := by decide

theorem witness_RawBitIsTheAndOfThreeSamples :
    (sRx0.initialized = true ∧ sRx0.top = .receivingCommand ∧ sRx0.sampleCount = 0#2 ∧ sRx0.bitsReceived.toNat < 95) ∧
    ∃ s : State, s.initialized = true ∧ s.top = .receivingCommand ∧ s.sampleCount = 0#2 ∧ s.bitsReceived.toNat = 94 :=
  ⟨by decide, { sRx0 with bitsReceived := 94 }, by decide⟩

/-- A count of 3, where the next count is a free value. -/
theorem witness_TickCompletesInEveryState :
    ∃ s : State, s.initialized = true ∧ s.top = .receivingCommand ∧ s.sampleCount = 3#2 :=
  ⟨{ sRx0 with sampleCount := 3 }, by decide⟩

/-- The first index without a cell, the last count that can grow, and 255. -/
theorem witness_RawBitWithoutACellIsCounted :
    ∀ b ∈ [96#8, 254#8, 255#8],
      ∃ s : State, s.initialized = true ∧ s.top = .receivingCommand ∧ s.sampleCount = 2#2 ∧
        96 ≤ s.bitsReceived.toNat ∧ s.bitsReceived = b := by
  intro b hb
  refine ⟨{ sRx2 with bitsReceived := b }, rfl, rfl, rfl, ?_, rfl⟩
  simp only [List.mem_cons, List.not_mem_nil, or_false] at hb
  rcases hb with rfl | rfl | rfl <;> decide

/-! ### Witnesses: the frame decoder -/

/-- Each of the eight patterns at the start of a bitmap (cell 0 is the lowest bit). -/
theorem witness_LogicalBitReadsThePulseDistance :
    (memRead true 0b0101#96 0 = true ∧ memRead true 0b0101#96 1 = false ∧ memRead true 0b0101#96 2 = true ∧
      memRead true 0b0101#96 3 = false) ∧
    logicalBit true 0b0101#96 0 = some (false, 2) ∧ logicalBit true 0b1101#96 0 = some (false, 2) ∧
    logicalBit true 0b0001#96 0 = some (true, 4) ∧ logicalBit true 0b1001#96 0 = none ∧
    logicalBit true 0b0000#96 0 = none ∧ logicalBit true 0b0010#96 0 = none ∧ logicalBit true 0b0011#96 0 = none ∧
    logicalBit true (1#96 <<< 94) 94 = some (false, 2) := by decide

/-- A frame of 80 units, and one that fills the bitmap (S5: `NECDATA 0xFB04, 0x08, 0xF7`). -/
theorem witness_ParsedFrameUsesUnitsByItsOnes :
    parseFrame true rawExample = some (0xF7080000#32, 80) ∧
    parseFrame true (rawImage (necUnits 0xFB04 0x08 0xF7)) = some (0xF708FB04#32, 96) := by
  set_option maxRecDepth 8000 in decide

/-- S6: an accepted sum, and a rejected one. -/
theorem witness_DecodeChecksTheCommandAgainstItsInverse :
    decodeFrame true rawExample = some (0x0000, 0x08) ∧ checksumOk 0x08 0xF7 = true ∧ checksumOk 0x08 0xF6 = false := by
  decide

/-- V-SMP-10: cell 95 set, far past the final cursor 80. -/
theorem witness_CellsAfterTheFrameAreNotExamined :
    parseFrame true rawExample = some (0xF7080000#32, 80) ∧
    ∀ i ≤ 80, memRead true 0x800111114445545555555555#96 i = memRead true rawExample i := by
  set_option maxRecDepth 4000 in decide

/-! ### Witnesses: the repeat-frame detector -/

theorem witness_RisingEdgeStartsTheRepeatPulse :
    sRep.initialized = true ∧ sRep.top = .waitRepeat ∧ sRep.rep = .waitRise := by decide

theorem witness_RepeatPulseGoesOnOrFails :
    sRwf.initialized = true ∧ sRwf.top = .waitRepeat ∧ sRwf.rep = .waitFall ∧
    sRwf.P.repPulseMin.toNat < (7501#32).toNat ∧ (7500#32).toNat ≤ sRwf.P.repPulseMin.toNat := by decide

theorem witness_RepeatGapConfirmsOrFails :
    sRwre.initialized = true ∧ sRwre.top = .waitRepeat ∧ sRwre.rep = .waitRiseEnd ∧
    sRwre.P.repGapMin.toNat < (1801#32).toNat ∧ (1800#32).toNat ≤ sRwre.P.repGapMin.toNat := by decide

theorem witness_OtherEdgesInTheRepeatWindowAreIgnored :
    (sRep.initialized = true ∧ sRep.top = .waitRepeat ∧ sRep.rep = .waitRise) ∧
    (sRwf.initialized = true ∧ sRwf.top = .waitRepeat ∧ sRwf.rep = .waitFall) ∧
    (sRwre.initialized = true ∧ sRwre.top = .waitRepeat ∧ sRwre.rep = .waitRiseEnd) ∧
    (sRflt.initialized = true ∧ sRflt.top = .waitRepeat ∧ sRflt.rep = .fault) := by decide

/-- S9: the sum 1200 stays in the window; the sum 1201 is the least that closes it. -/
theorem witness_HousekeepingTickCountsOrResets :
    (∃ s : State, s.initialized = true ∧ s.top = .waitRepeat ∧ s.rep = .waitRise ∧
      s.elapsedMs.toNat + 10 = s.P.repeatTimeoutMs.toNat) ∧
    ∃ s : State, s.initialized = true ∧ s.top = .waitRepeat ∧ s.rep = .fault ∧
      s.elapsedMs.toNat + 10 = s.P.repeatTimeoutMs.toNat + 1 :=
  ⟨⟨{ sRep with elapsedMs := 1190 }, by decide⟩, { sRflt with elapsedMs := 1191 }, by decide⟩

theorem witness_ExpiryFailsTheRepeatMeasurement :
    (sRwf.initialized = true ∧ sRwf.top = .waitRepeat ∧ sRwf.rep = .waitFall) ∧
    (sRwre.initialized = true ∧ sRwre.top = .waitRepeat ∧ sRwre.rep = .waitRiseEnd) := by decide

/-- A step that stays in the window, and one that leaves it. -/
theorem witness_RepeatWindowIsLeftOnlyByReset :
    (∃ t, step (presenting sRep 0x2#64) = .next t ∧ t.top = .waitRepeat) ∧
    ∃ t, step (presenting sRep 0x3#64) = .next t ∧ t.top = .synchronizing := ⟨⟨_, rfl, rfl⟩, _, rfl, rfl⟩

/-- At 1180 ms the third tick closes the window of 1200 ms. -/
theorem witness_WindowClosesOnTheTickPastTheTimeout :
    let s : State := { sRflt with elapsedMs := 1180, pending := [0x2#64, 0xA#64, 0x2#64] }
    s.initialized = true ∧ s.top = .waitRepeat ∧ s.rep = .fault ∧ OnlyTicks s ∧
    ticksToTimeout s.P s.elapsedMs.toNat = 3 ∧ ticksToTimeout s.P s.elapsedMs.toNat ≤ s.pending.length := by
  refine ⟨rfl, rfl, rfl, fun w hw => ?_, by decide, by decide⟩
  simp only [List.mem_cons, List.not_mem_nil, or_false] at hw
  rcases hw with rfl | rfl | rfl
  · exact ⟨false, by decide⟩
  · exact ⟨true, by decide⟩
  · exact ⟨false, by decide⟩

/-! ### Witnesses: reset, boot and the invariants -/

theorem witness_PowerOnZeroesOrRefuses :
    ¬Params.Legal { exampleParams with syncPulseMin := 94 } ∧ sPor = State.por sPor.params := ⟨by decide, rfl⟩

/-- A state of the repeat window and the boot state agree on the kept fields. -/
theorem witness_ResetForgetsTheProtocolState :
    sRep.cbValid = sBoot.cbValid ∧ sRep.cbCtx = sBoot.cbCtx ∧ sRep.initialized = sBoot.initialized ∧
    sRep.fault = sBoot.fault ∧ sRep.params = sBoot.params ∧ sRep.pending = sBoot.pending ∧
    sRep.acts = [] ∧ sBoot.acts = [] := by decide

/-- The premises of StepKeepsTheReachableInvariants, StepKeepsCalibrationAndFreshSamples,
TimerCommandsArePositive and ActionsFitTheOutputPorts, at the step that completes a frame. -/
theorem witness_StepKeepsTheReachableInvariants :
    RunInvariant (presenting sR95 0x2#64) ∧ ∃ t, step (presenting sR95 0x2#64) = .next t := ⟨inv_pending _ inv_sR95, _, rfl⟩

theorem witness_StepKeepsCalibrationAndFreshSamples :
    RunInvariant (presenting sR95 0x2#64) ∧ FreshSamples (presenting sR95 0x2#64) ∧
    Calibrated (presenting sR95 0x2#64) ∧ ∃ t, step (presenting sR95 0x2#64) = .next t :=
  ⟨inv_pending _ inv_sR95, by decide, fun _ => by decide, _, rfl⟩

theorem witness_TimerCommandsArePositive :
    RunInvariant (presenting sRx0 0xA#64) ∧ Calibrated (presenting sRx0 0xA#64) ∧
    ∃ t, step (presenting sRx0 0xA#64) = .next t ∧ t.acts = [.tmrContinuous 187] :=
  ⟨inv_pending _ inv_sRx0, fun _ => by decide, _, rfl, rfl⟩

/-- A step of three actions, and one of two. -/
theorem witness_ActionsFitTheOutputPorts :
    (RunInvariant (presenting sRep 0x3#64) ∧
      ∃ t, step (presenting sRep 0x3#64) = .next t ∧ t.acts = [.pinConfig, .tmrConfig, .tmrStop]) ∧
    RunInvariant (presenting sR95 0x2#64) ∧
      ∃ t, step (presenting sR95 0x2#64) = .next t ∧
        t.acts = [.emit 0xC0FFEE 0x0000 0x08 false, .tmrContinuous 10000] :=
  ⟨⟨inv_pending _ inv_sRep, _, rfl, rfl⟩, inv_pending _ inv_sR95, _, rfl, rfl⟩

/-- A step that sets a bit beside one already set. -/
theorem witness_AtMostOneFaultBitIsSetAndNoneCleared :
    ∃ t, step (presenting { sBoot with fault := 0b1000 } 0x5#64) = .next t ∧ t.fault = 0b1001 := ⟨_, rfl, rfl⟩

theorem witness_FaultBitsHaveNoEffect : ∃ t, step (presenting sWf 0x9#64) = .next t := ⟨_, rfl⟩

theorem witness_OperandsAreReadOnlyWhereARuleSaysSo :
    ¬ReadsElapsed sBoot true ∧ ¬ReadsElapsed sPor false ∧ sBoot.top ≠ .receivingCommand := by decide

/-- TICK is no SETCB and no INIT; SETCB and INIT are the words of the other cases. -/
theorem witness_RegistrationChangesOnlyByItsOwnWord :
    (presenting sBoot 0x2#64).pending = 0x2#64 :: [] ∧ (∃ t, step (presenting sBoot 0x2#64) = .next t) ∧
    (∀ en ctx, decode 0x2#64 ≠ .ok (.setcb en ctx)) ∧ decode 0x2#64 ≠ .ok .init ∧ sBoot.initialized = true :=
  have h : decode 0x2#64 = .ok (.tick false) := by decide
  ⟨rfl, ⟨_, rfl⟩, fun _ _ => by rw [h]; simp, by rw [h]; simp, rfl⟩

/-- An edge that resets, one that calibrates and one that confirms a repeat. -/
theorem witness_EdgeLeavesBitmapAndCommandUnlessItResets :
    exec (.edge false 8000) sWf = .next sWf.resetDecoder ∧ (∃ t, exec (.edge false 8001) sWf = .next t) ∧
    ∃ t, exec (.edge true 2250) sRwre = .next t := ⟨rfl, ⟨_, rfl⟩, _, rfl⟩

/-- A tick that resets, one that stores a raw bit, one that completes a frame and one before INIT. -/
theorem witness_TickChangesTheBitmapOnlyAtTheNextRawBit :
    (∃ t, exec (.tick false) sWf = .next t) ∧ (∃ t, exec (.tick true) sRx2 = .next t) ∧
    (∃ t, exec (.tick false) sR95 = .next t) ∧ ∃ t, exec (.tick false) sPor = .next t :=
  ⟨⟨_, rfl⟩, ⟨_, rfl⟩, ⟨_, rfl⟩, _, rfl⟩

/-! ### Witnesses: quiescence and the collaborators -/

/-- The expiry of the header one-shot, issued last. -/
theorem witness_TimerIsIdleWhileWaitingForAHeader :
    (sWf.top = .synchronizing → sWf.sync = .waitRise → TimerIdle [.tmrOneShot 10000]) ∧
    ∃ t, step (presenting sWf 0x2#64) = .next t ∧ t.top = .synchronizing ∧ t.sync = .waitRise :=
  ⟨by decide, _, rfl, rfl, rfl⟩

/-- 404 ticks from the start of a frame: the bound of the example parameters. -/
theorem witness_QuiescenceWithinTheTickBound :
    let s : State := { sRx0 with pending := List.replicate 404 (encode (.tick false)) }
    RunInvariant s ∧ s.initialized = true ∧ OnlyTicks s ∧ quiescenceBound s.P = 404 ∧
    quiescenceBound s.P ≤ s.pending.length ∧
    (s.top = .synchronizing → s.sync = .waitRise → TimerIdle [.tmrOneShot 93]) := by
  refine ⟨inv_pending _ inv_sRx0, rfl, fun w h => ⟨false, List.eq_of_mem_replicate h⟩, by decide, ?_, fun h => by cases h⟩
  simp only [List.length_replicate]
  decide

theorem witness_TimerExpiresAsItsContractSays : 1 ≤ (1#32 : Ticks).toNat ∧ 1 ≤ (187#32 : Ticks).toNat := by decide

/-- S_RX0 with its one-shot of 93 ticks just started. -/
theorem witness_SamplesAreTakenAtTheIdealTimes :
    let y : System := ⟨sRx0, ⟨.oneShot 93, 0, 0⟩, ⟨true, true, 0⟩⟩
    y.block.initialized = true ∧ y.block.top = .receivingCommand ∧ y.block.rearm = true ∧ y.block.bitsReceived = 0 ∧
    y.block.sampleCount = 0 ∧ y.block.interval = sampleInterval 9000 ∧ y.block.measShift = measurementShift 9000 ∧
    1 ≤ (measurementShift 9000).toNat ∧ y.timer = ⟨.oneShot y.block.measShift, 0, 0⟩ ∧
    93 < sampleTime 9000 1 ∧ sampleTime 9000 0 ≤ 93 ∧ 92 < sampleTime 9000 0 := by decide

/-- The pulse of 9000 ticks: units of 562.5 ticks against 561 of the sample clock. -/
theorem witness_FirstSampleLiesInItsUnitWhileTheDriftIsSmall :
    2 ≤ (sampleInterval 9000).toNat ∧ (3 / 2 : ℚ) = 1125 / 2 - 3 * ((sampleInterval 9000).toNat : ℚ) ∧ (0 : ℚ) ≤ 3 / 2 := by
  refine ⟨by decide, ?_, by norm_num⟩
  rw [show (sampleInterval 9000).toNat = 187 from by decide]
  norm_num

end Sys2Proof.Tests
end

section
/-! PROOFS. Every instruction answers a state, and carries the words to come along without reading them (00_scope.md R3); a
sampling tick in every count of samples (42_sampler.md R150–R152). -/

namespace Sys2Proof.Machine

/-! ### The words to come are carried along by every handler, and read by none -/

theorem syncEndPulse_withPending (p : Ticks) (s : State) (l : List Word) :
    syncEndPulse p { s with pending := l } = { syncEndPulse p s with pending := l } := by
  unfold syncEndPulse
  simp only [State.P_eq]
  split <;> rfl

theorem syncEndGap_withPending (g : Ticks) (s : State) (l : List Word) :
    syncEndGap g { s with pending := l } = { syncEndGap g s with pending := l } := by
  unfold syncEndGap
  simp only [State.P_eq]
  split <;> rfl

theorem syncEdge_withPending (lvl : Bool) (el : Ticks) (s : State) (l : List Word) :
    syncEdge lvl el { s with pending := l } = { syncEdge lvl el s with pending := l } := by
  obtain ⟨_, sync, _⟩ := s
  cases sync with
  | waitRise => cases lvl <;> rfl
  | waitFall =>
    cases lvl with
    | true => rfl
    | false => exact syncEndPulse_withPending el _ l
  | waitRiseEnd =>
    cases lvl with
    | true => exact syncEndGap_withPending el _ l
    | false => rfl
  | done => rfl

theorem syncTick_withPending (s : State) (l : List Word) :
    syncTick { s with pending := l } = { syncTick s with pending := l } := by
  obtain ⟨_, sync, _⟩ := s
  cases sync <;> rfl

theorem repEndPulse_withPending (p : Ticks) (s : State) (l : List Word) :
    repEndPulse p { s with pending := l } = { repEndPulse p s with pending := l } := by
  unfold repEndPulse
  simp only [State.P_eq]
  split <;> rfl

theorem repConfirm_withPending (s : State) (l : List Word) :
    repConfirm { s with pending := l } = { repConfirm s with pending := l } := by
  unfold repConfirm
  rw [deliver_withPending]
  rfl

theorem repEndGap_withPending (g : Ticks) (s : State) (l : List Word) :
    repEndGap g { s with pending := l } = { repEndGap g s with pending := l } := by
  unfold repEndGap
  simp only [State.P_eq]
  split
  · exact repConfirm_withPending s l
  · rfl

theorem repEdge_withPending (lvl : Bool) (el : Ticks) (s : State) (l : List Word) :
    repEdge lvl el { s with pending := l } = { repEdge lvl el s with pending := l } := by
  obtain ⟨_, _, rep, _⟩ := s
  cases rep with
  | waitRise => cases lvl <;> rfl
  | waitFall =>
    cases lvl with
    | true => rfl
    | false => exact repEndPulse_withPending el _ l
  | waitRiseEnd =>
    cases lvl with
    | true => exact repEndGap_withPending el _ l
    | false => rfl
  | fault => rfl

theorem housekeepingTick_withPending (s : State) (l : List Word) :
    housekeepingTick { s with pending := l } = { housekeepingTick s with pending := l } := by
  unfold housekeepingTick
  simp only [State.P_eq]
  split <;> rfl

theorem repTick_withPending (s : State) (l : List Word) :
    repTick { s with pending := l } = { repTick s with pending := l } := by
  obtain ⟨_, _, rep, _⟩ := s
  cases rep with
  | waitRise => exact housekeepingTick_withPending _ l
  | waitFall => rfl
  | waitRiseEnd => rfl
  | fault => exact housekeepingTick_withPending _ l

theorem noteRepeatedInit_withPending (s : State) (l : List Word) :
    noteRepeatedInit { s with pending := l } = { noteRepeatedInit s with pending := l } := by
  unfold noteRepeatedInit
  simp only
  split <;> rfl

/-! ### EDGE and TICK, one equation a case (40_dispatch.md R112, R113, R116) -/

theorem exec_edge_beforeInit {s : State} (lvl : Bool) (el : Ticks) (hi : s.initialized = false) :
    exec (.edge lvl el) s = .next s.eventBeforeInit := by
  simp [exec, execEdge, hi]

theorem exec_edge_synchronizing {s : State} (lvl : Bool) (el : Ticks) (hi : s.initialized = true)
    (ht : s.top = .synchronizing) : exec (.edge lvl el) s = .next (syncEdge lvl el s) := by
  simp [exec, execEdge, hi, ht]

theorem exec_edge_receivingCommand {s : State} (lvl : Bool) (el : Ticks) (hi : s.initialized = true)
    (ht : s.top = .receivingCommand) : exec (.edge lvl el) s = .next s := by
  simp [exec, execEdge, hi, ht]

theorem exec_edge_waitRepeat {s : State} (lvl : Bool) (el : Ticks) (hi : s.initialized = true)
    (ht : s.top = .waitRepeat) : exec (.edge lvl el) s = .next (repEdge lvl el s) := by
  simp [exec, execEdge, hi, ht]

theorem exec_tick_beforeInit {s : State} (lvl : Bool) (hi : s.initialized = false) :
    exec (.tick lvl) s = .next s.eventBeforeInit := by
  simp [exec, execTick, hi]

theorem exec_tick_synchronizing {s : State} (lvl : Bool) (hi : s.initialized = true)
    (ht : s.top = .synchronizing) : exec (.tick lvl) s = .next (syncTick s) := by
  simp [exec, execTick, hi, ht]

theorem exec_tick_receivingCommand {s : State} (lvl : Bool) (hi : s.initialized = true)
    (ht : s.top = .receivingCommand) : exec (.tick lvl) s = .next (sampleTick lvl s) := by
  simp [exec, execTick, hi, ht]

theorem exec_tick_waitRepeat {s : State} (lvl : Bool) (hi : s.initialized = true)
    (ht : s.top = .waitRepeat) : exec (.tick lvl) s = .next (repTick s) := by
  simp [exec, execTick, hi, ht]

/-! ### Every instruction answers a state, and the same one whatever words come later (00_scope.md R3) -/

theorem execEdge_next (lvl : Bool) (el : Ticks) (s : State) : ∃ t, execEdge lvl el s = .next t := by
  unfold execEdge
  cases s.initialized with
  | false => exact ⟨_, rfl⟩
  | true => cases s.top <;> exact ⟨_, rfl⟩

theorem execTick_next (lvl : Bool) (s : State) : ∃ t, execTick lvl s = .next t := by
  unfold execTick
  cases s.initialized with
  | false => exact ⟨_, rfl⟩
  | true => cases s.top <;> exact ⟨_, rfl⟩

theorem exec_next (i : Instr) (s : State) : ∃ t, exec i s = .next t := by
  cases i with
  | nop => exact ⟨_, rfl⟩
  | edge lvl el => exact execEdge_next lvl el s
  | tick lvl => exact execTick_next lvl s
  | init => exact ⟨_, rfl⟩
  | setcb en ctx => exact ⟨_, rfl⟩

theorem stepWord_next (w : Word) (s : State) : ∃ t, stepWord w s = .next t := by
  unfold stepWord
  cases decode w with
  | ok i => exact exec_next i s
  | error _ => exact ⟨_, rfl⟩

theorem exec_edge_withPending {lvl : Bool} {el : Ticks} {s t : State} (h : exec (.edge lvl el) s = .next t)
    (l : List Word) : exec (.edge lvl el) { s with pending := l } = .next { t with pending := l } := by
  obtain ⟨hi, rfl⟩ | ⟨hi, ⟨ht, rfl⟩ | ⟨ht, rfl⟩ | ⟨ht, rfl⟩⟩ := execEdge_cases h
  · exact exec_edge_beforeInit lvl el hi
  · rw [← syncEdge_withPending]
    exact exec_edge_synchronizing lvl el hi ht
  · exact exec_edge_receivingCommand lvl el hi ht
  · rw [← repEdge_withPending]
    exact exec_edge_waitRepeat lvl el hi ht

theorem exec_tick_withPending {lvl : Bool} {s t : State} (h : exec (.tick lvl) s = .next t) (l : List Word) :
    exec (.tick lvl) { s with pending := l } = .next { t with pending := l } := by
  obtain ⟨hi, rfl⟩ | ⟨hi, ⟨ht, rfl⟩ | ⟨ht, rfl⟩ | ⟨ht, rfl⟩⟩ := execTick_cases h
  · exact exec_tick_beforeInit lvl hi
  · rw [← syncTick_withPending]
    exact exec_tick_synchronizing lvl hi ht
  · rw [← sampleTick_withPending]
    exact exec_tick_receivingCommand lvl hi ht
  · rw [← repTick_withPending]
    exact exec_tick_waitRepeat lvl hi ht

theorem exec_init_withPending {s t : State} (h : exec .init s = .next t) (l : List Word) :
    exec .init { s with pending := l } = .next { t with pending := l } := by
  cases h
  unfold exec execInit
  rw [noteRepeatedInit_withPending]
  rfl

theorem exec_withPending {i : Instr} {s t : State} (h : exec i s = .next t) (l : List Word) :
    exec i { s with pending := l } = .next { t with pending := l } := by
  cases i with
  | nop => cases h; rfl
  | edge lvl el => exact exec_edge_withPending h l
  | tick lvl => exact exec_tick_withPending h l
  | init => exact exec_init_withPending h l
  | setcb en ctx => cases h; rfl

theorem stepWord_withPending {w : Word} {s t : State} (h : stepWord w s = .next t) (l : List Word) :
    stepWord w { s with pending := l } = .next { t with pending := l } := by
  unfold stepWord at h ⊢
  cases hd : decode w with
  | ok i => rw [hd] at h; exact exec_withPending h l
  | error _ => rw [hd] at h; cases h; rfl

/-- A step on a presented word, from the empty action list (40_dispatch.md R110). -/
theorem step_cons (s : State) (w : Word) (rest : List Word) (acts : List Action) :
    step { s with pending := w :: rest, acts := acts } = stepWord w { s with pending := rest, acts := [] } := rfl

/-! ### The sampling tick (42_sampler.md R150–R152) -/

theorem rearmIfSet_eq (s : State) :
    rearmIfSet s =
      { s with rearm := false, acts := s.acts ++ (if s.rearm then [.tmrContinuous s.interval] else []) } := by
  unfold rearmIfSet State.act
  cases h : s.rearm with
  | true => rfl
  | false =>
    simp only [Bool.false_eq_true, if_false, List.append_nil]
    rw [← h]

/-- The state `sampleTick` branches on, in every count of samples. -/
theorem accumulate_rearmIfSet_eq (lvl : Bool) (s : State) :
    accumulate lvl (rearmIfSet s) =
      { s with
        rearm := false, acc := shiftInSample s.acc lvl, sampleCount := nextSampleCount lvl (rearmIfSet s),
        acts := s.acts ++ (if s.rearm then [.tmrContinuous s.interval] else []) } := by
  rw [rearmIfSet_eq]
  rfl

end Sys2Proof.Machine

namespace Sys2Proof.Proofs

open Sys2Proof.Machine

/-- Settles O22: TICK answers as every instruction does, and the sampling tick is `accumulate` on the rearmed state, for
whatever count `nextSampleCount` gives. -/
theorem tickCompletesInEveryState : Obligations.TickCompletesInEveryState := by
  unfold Obligations.TickCompletesInEveryState
  refine ⟨fun s lvl => exec_next (.tick lvl) s, fun s lvl hi ht _ => ?_⟩
  exact ⟨accumulate lvl (rearmIfSet s), shiftInSample s.acc lvl, nextSampleCount lvl (rearmIfSet s),
    shiftInSample_toNat s.acc lvl, accumulate_rearmIfSet_eq lvl s, exec_tick_receivingCommand lvl hi ht⟩

/-- Settles O46: a step clears the action list before the word takes effect, and no instruction reads the words to come. -/
theorem stepIsATotalFunctionOfStateAndWord : Obligations.StepIsATotalFunctionOfStateAndWord := by
  unfold Obligations.StepIsATotalFunctionOfStateAndWord
  intro s w
  obtain ⟨t, ht⟩ := stepWord_next w { s with acts := [] }
  exact ⟨t, fun rest acts => (step_cons s w rest acts).trans (stepWord_withPending ht rest)⟩

end Sys2Proof.Proofs
end

section
/-! PROOFS. What each handler can do, said once: the cases of the tables of 41_sync.md R130, R140 and 44_repeat.md R190,
R200, R201, and what a sampling tick ends in (42_sampler.md R150–R155). -/

namespace Sys2Proof.Machine

/-! ### The synchronization detector (41_sync.md R130–R140) -/

theorem syncEndPulse_cases (p : Ticks) (s : State) :
    (s.P.syncPulseMin < p ∧ syncEndPulse p s = syncCalibrate p s) ∨
    (¬s.P.syncPulseMin < p ∧ syncEndPulse p s = s.resetDecoder) := by
  by_cases h : s.P.syncPulseMin < p
  · exact .inl ⟨h, if_pos h⟩
  · exact .inr ⟨h, if_neg h⟩

theorem syncEndGap_cases (g : Ticks) (s : State) :
    (s.P.syncGapMin < g ∧ syncEndGap g s = syncComplete s) ∨
    (¬s.P.syncGapMin < g ∧ syncEndGap g s = s.resetDecoder) := by
  by_cases h : s.P.syncGapMin < g
  · exact .inl ⟨h, if_pos h⟩
  · exact .inr ⟨h, if_neg h⟩

/-- An edge while synchronizing is ignored, starts or ends the measurement of the header pulse, or ends the header gap. -/
theorem syncEdge_cases (lvl : Bool) (el : Ticks) (s : State) :
    syncEdge lvl el s = s ∨
    (s.sync = .waitRise ∧ lvl = true ∧ syncEdge lvl el s = syncStartPulse s) ∨
    (s.sync = .waitFall ∧ lvl = false ∧ syncEdge lvl el s = syncEndPulse el s) ∨
    (s.sync = .waitRiseEnd ∧ lvl = true ∧ syncEdge lvl el s = syncEndGap el s) := by
  unfold syncEdge
  cases s.sync <;> cases lvl <;> simp

/-- A tick while synchronizing is ignored, or ends a measurement with a reset. -/
theorem syncTick_cases (s : State) : syncTick s = s ∨ syncTick s = s.resetDecoder := by
  unfold syncTick
  cases s.sync <;> simp

/-! ### The repeat-frame detector (44_repeat.md R190–R201) -/

/-- WaitFall, falling edge, valid repeat pulse: start measuring the gap (44_repeat.md R193). -/
def repStartGap (s : State) : State := State.act { s with rep := .waitRiseEnd } (.tmrOneShot s.P.repGapMax)

theorem repEndPulse_cases (p : Ticks) (s : State) :
    (s.P.repPulseMin < p ∧ repEndPulse p s = repStartGap s) ∨
    (¬s.P.repPulseMin < p ∧ repEndPulse p s = repFail s) := by
  by_cases h : s.P.repPulseMin < p
  · exact .inl ⟨h, if_pos h⟩
  · exact .inr ⟨h, if_neg h⟩

theorem repEndGap_cases (g : Ticks) (s : State) :
    (s.P.repGapMin < g ∧ repEndGap g s = repConfirm s) ∨ (¬s.P.repGapMin < g ∧ repEndGap g s = repFail s) := by
  by_cases h : s.P.repGapMin < g
  · exact .inl ⟨h, if_pos h⟩
  · exact .inr ⟨h, if_neg h⟩

/-- An edge in the repeat window is ignored, starts or ends the measurement of a repeat pulse, or ends a repeat gap. -/
theorem repEdge_cases (lvl : Bool) (el : Ticks) (s : State) :
    repEdge lvl el s = s ∨
    (s.rep = .waitRise ∧ lvl = true ∧ repEdge lvl el s = repStartPulse s) ∨
    (s.rep = .waitFall ∧ lvl = false ∧ repEdge lvl el s = repEndPulse el s) ∨
    (s.rep = .waitRiseEnd ∧ lvl = true ∧ repEdge lvl el s = repEndGap el s) := by
  unfold repEdge
  cases s.rep <;> cases lvl <;> simp

/-- A housekeeping tick closes the window past the timeout, or counts 10 ms more. -/
theorem housekeepingTick_cases (s : State) :
    (s.P.repeatTimeoutMs.toNat < s.elapsedMs.toNat + 10 ∧ housekeepingTick s = s.resetDecoder) ∨
    (s.elapsedMs.toNat + 10 ≤ s.P.repeatTimeoutMs.toNat ∧
      housekeepingTick s = { s with elapsedMs := s.elapsedMs + 10#32 }) := by
  by_cases h : s.P.repeatTimeoutMs.toNat < s.elapsedMs.toNat + 10
  · exact .inl ⟨h, if_pos h⟩
  · exact .inr ⟨Nat.le_of_not_lt h, if_neg h⟩

/-- A tick in the repeat window ends a measurement in failure, or is a housekeeping tick. -/
theorem repTick_cases (s : State) :
    ((s.rep = .waitFall ∨ s.rep = .waitRiseEnd) ∧ repTick s = repFail s) ∨
    ((s.rep = .waitRise ∨ s.rep = .fault) ∧ repTick s = housekeepingTick s) := by
  unfold repTick
  cases s.rep <;> simp

/-! ### The bit sampler (42_sampler.md R150–R155) -/

/-- A sampling tick takes a first or second sample, stores a raw bit that is not the 96th, or stores the 96th and resets
the decoder or delivers the command and opens the repeat window. -/
theorem sampleTick_outcomes (lvl : Bool) (s : State) :
    let t := accumulate lvl (rearmIfSet s)
    (t.sampleCount ≠ 3#2 ∧ sampleTick lvl s = t) ∨
    (t.sampleCount = 3#2 ∧
      ((nextBitsReceived t ≠ 96#8 ∧ sampleTick lvl s = resolveBit t) ∨
       (nextBitsReceived t = 96#8 ∧
        (sampleTick lvl s = (resolveBit t).resetDecoder ∨
         ∃ addr cmd, sampleTick lvl s = enterWaitRepeat (storeAndDeliver addr cmd (resolveBit t)))))) := by
  intro t
  obtain ⟨hc, ht⟩ | ⟨hc, ht⟩ := sampleTick_cases lvl s
  · exact .inl ⟨hc, ht⟩
  · obtain ⟨hb, hf⟩ | ⟨hb, hf⟩ := finishRawBit_cases (resolveBit t)
    · exact .inr ⟨hc, .inl ⟨hb, ht.trans hf⟩⟩
    · obtain ⟨-, hd⟩ | ⟨addr, cmd, -, hd⟩ := frameComplete_cases (resolveBit t)
      · exact .inr ⟨hc, .inr ⟨hb, .inl (ht.trans (hf.trans hd))⟩⟩
      · exact .inr ⟨hc, .inr ⟨hb, .inr ⟨addr, cmd, ht.trans (hf.trans hd)⟩⟩⟩

/-- The rearm leaves the count of samples alone, so the sample counts on from the state before it (42_sampler.md R151). -/
theorem accumulate_rearmIfSet_sampleCount {s : State} (lvl : Bool) (h : s.sampleCount ≠ 3#2) :
    (accumulate lvl (rearmIfSet s)).sampleCount = s.sampleCount + 1#2 := by
  rw [accumulate_sampleCount, nextSampleCount_eq lvl (by rwa [rearmIfSet_sampleCount]), rearmIfSet_sampleCount]

/-- No cell but the next one changes where a raw bit is stored (20_memory.md R61). -/
theorem memRead_storeRawBit_of_ne {s : State} (h : s.bitsReceived.toNat < 96) {i : Nat}
    (hi : i ≠ s.bitsReceived.toNat) (oob : Bool) : memRead oob (storeRawBit s) i = memRead oob s.raw i := by
  unfold memRead
  rw [storeRawBit_getLsbD h, if_neg hi]

/-- The count is 96 after a raw bit only from 95, or from 255, where it is free (log entry 4). -/
theorem bitsReceived_of_nextBitsReceived {s : State} (h : nextBitsReceived s = 96#8) :
    s.bitsReceived = 95#8 ∨ s.bitsReceived = 255#8 := by
  by_cases h255 : s.bitsReceived = 255#8
  · exact .inr h255
  · rw [nextBitsReceived_eq h255] at h
    exact .inl (by bv_omega)

end Sys2Proof.Machine
end

section
/-! PROOFS. What the handlers leave unchanged (10_state.md R20, column "writers"): the fields only the host operations
write, and the frame of EDGE and of TICK. -/

namespace Sys2Proof.Machine

/-! ### The fields of the host operations (10_state.md R35, R36) -/

/-- The two states agree in what no handler writes: the registration, `initialized`, the parameters and the words to
come. -/
structure KeepsRegistration (s t : State) : Prop where
  cbValid : t.cbValid = s.cbValid
  cbCtx : t.cbCtx = s.cbCtx
  initialized : t.initialized = s.initialized
  params : t.params = s.params
  pending : t.pending = s.pending

theorem KeepsRegistration.refl (s : State) : KeepsRegistration s s := ⟨rfl, rfl, rfl, rfl, rfl⟩

theorem resetDecoder_keepsRegistration (s : State) : KeepsRegistration s s.resetDecoder := ⟨rfl, rfl, rfl, rfl, rfl⟩

theorem repFail_keepsRegistration (s : State) : KeepsRegistration s (repFail s) := ⟨rfl, rfl, rfl, rfl, rfl⟩

theorem repConfirm_keepsRegistration (s : State) : KeepsRegistration s (repConfirm s) := by
  constructor <;> simp [repConfirm]

theorem syncEdge_keepsRegistration (lvl : Bool) (el : Ticks) (s : State) :
    KeepsRegistration s (syncEdge lvl el s) := by
  obtain h | ⟨-, -, h⟩ | ⟨-, -, h⟩ | ⟨-, -, h⟩ := syncEdge_cases lvl el s <;> rw [h]
  · exact .refl s
  · exact ⟨rfl, rfl, rfl, rfl, rfl⟩
  · obtain ⟨-, h⟩ | ⟨-, h⟩ := syncEndPulse_cases el s <;> rw [h]
    · exact ⟨rfl, rfl, rfl, rfl, rfl⟩
    · exact resetDecoder_keepsRegistration s
  · obtain ⟨-, h⟩ | ⟨-, h⟩ := syncEndGap_cases el s <;> rw [h]
    · exact ⟨rfl, rfl, rfl, rfl, rfl⟩
    · exact resetDecoder_keepsRegistration s

theorem syncTick_keepsRegistration (s : State) : KeepsRegistration s (syncTick s) := by
  obtain h | h := syncTick_cases s <;> rw [h]
  · exact .refl s
  · exact resetDecoder_keepsRegistration s

theorem repEdge_keepsRegistration (lvl : Bool) (el : Ticks) (s : State) :
    KeepsRegistration s (repEdge lvl el s) := by
  obtain h | ⟨-, -, h⟩ | ⟨-, -, h⟩ | ⟨-, -, h⟩ := repEdge_cases lvl el s <;> rw [h]
  · exact .refl s
  · exact ⟨rfl, rfl, rfl, rfl, rfl⟩
  · obtain ⟨-, h⟩ | ⟨-, h⟩ := repEndPulse_cases el s <;> rw [h]
    · exact ⟨rfl, rfl, rfl, rfl, rfl⟩
    · exact repFail_keepsRegistration s
  · obtain ⟨-, h⟩ | ⟨-, h⟩ := repEndGap_cases el s <;> rw [h]
    · exact repConfirm_keepsRegistration s
    · exact repFail_keepsRegistration s

theorem repTick_keepsRegistration (s : State) : KeepsRegistration s (repTick s) := by
  obtain ⟨-, h⟩ | ⟨-, h⟩ := repTick_cases s <;> rw [h]
  · exact repFail_keepsRegistration s
  · obtain ⟨-, h⟩ | ⟨-, h⟩ := housekeepingTick_cases s <;> rw [h]
    · exact resetDecoder_keepsRegistration s
    · exact ⟨rfl, rfl, rfl, rfl, rfl⟩

theorem sampleTick_keepsRegistration (lvl : Bool) (s : State) : KeepsRegistration s (sampleTick lvl s) := by
  obtain ⟨-, h⟩ | ⟨-, ⟨-, h⟩ | ⟨-, h | ⟨addr, cmd, h⟩⟩⟩ := sampleTick_outcomes lvl s <;> rw [h]
  · constructor <;> simp
  · constructor <;> simp
  · constructor <;> simp
  · constructor <;> simp [enterWaitRepeat, storeAndDeliver]

theorem exec_edge_keepsRegistration {lvl : Bool} {el : Ticks} {s t : State} (h : exec (.edge lvl el) s = .next t) :
    KeepsRegistration s t := by
  obtain ⟨-, rfl⟩ | ⟨-, ⟨-, rfl⟩ | ⟨-, rfl⟩ | ⟨-, rfl⟩⟩ := execEdge_cases h
  · exact ⟨rfl, rfl, rfl, rfl, rfl⟩
  · exact syncEdge_keepsRegistration lvl el s
  · exact .refl t
  · exact repEdge_keepsRegistration lvl el s

theorem exec_tick_keepsRegistration {lvl : Bool} {s t : State} (h : exec (.tick lvl) s = .next t) :
    KeepsRegistration s t := by
  obtain ⟨-, rfl⟩ | ⟨-, ⟨-, rfl⟩ | ⟨-, rfl⟩ | ⟨-, rfl⟩⟩ := execTick_cases h
  · exact ⟨rfl, rfl, rfl, rfl, rfl⟩
  · exact syncTick_keepsRegistration s
  · exact sampleTick_keepsRegistration lvl s
  · exact repTick_keepsRegistration s

theorem noteRepeatedInit_keepsRegistration (s : State) : KeepsRegistration s (noteRepeatedInit s) := by
  unfold noteRepeatedInit
  split
  · exact ⟨rfl, rfl, rfl, rfl, rfl⟩
  · exact .refl s

/-- What an instruction may do to those fields: SETCB alone writes the registration, INIT alone writes `initialized` and
sets it, and nothing else is written. -/
structure WritesOwnRegistration (i : Instr) (s t : State) : Prop where
  registration : (∀ en ctx, i ≠ .setcb en ctx) → t.cbValid = s.cbValid ∧ t.cbCtx = s.cbCtx
  initialized : i ≠ .init → t.initialized = s.initialized
  staysInitialized : s.initialized = true → t.initialized = true
  params : t.params = s.params
  pending : t.pending = s.pending

theorem KeepsRegistration.writesOwn {s t : State} (k : KeepsRegistration s t) (i : Instr) :
    WritesOwnRegistration i s t :=
  ⟨fun _ => ⟨k.cbValid, k.cbCtx⟩, fun _ => k.initialized, k.initialized.trans, k.params, k.pending⟩

theorem exec_writesOwnRegistration {i : Instr} {s t : State} (h : exec i s = .next t) :
    WritesOwnRegistration i s t := by
  cases i with
  | nop => cases h; exact (KeepsRegistration.refl s).writesOwn .nop
  | edge lvl el => exact (exec_edge_keepsRegistration h).writesOwn (.edge lvl el)
  | tick lvl => exact (exec_tick_keepsRegistration h).writesOwn (.tick lvl)
  | init =>
    cases h
    have k := noteRepeatedInit_keepsRegistration s
    exact ⟨fun _ => ⟨k.cbValid, k.cbCtx⟩, fun hne => absurd rfl hne, fun _ => rfl, k.params, k.pending⟩
  | setcb en ctx =>
    cases h
    exact ⟨fun hne => absurd rfl (hne en ctx), fun _ => rfl, id, rfl, rfl⟩

/-! ### The frame of EDGE -/

/-- The two states agree in the bitmap, the sampler's counts and the decoded command. -/
structure KeepsFrame (s t : State) : Prop where
  raw : t.raw = s.raw
  bitsReceived : t.bitsReceived = s.bitsReceived
  acc : t.acc = s.acc
  sampleCount : t.sampleCount = s.sampleCount
  lastAddress : t.lastAddress = s.lastAddress
  lastCommand : t.lastCommand = s.lastCommand
  cmdReceived : t.cmdReceived = s.cmdReceived

theorem KeepsFrame.refl (s : State) : KeepsFrame s s := ⟨rfl, rfl, rfl, rfl, rfl, rfl, rfl⟩

theorem repConfirm_keepsFrame (s : State) : KeepsFrame s (repConfirm s) := by
  constructor <;> simp [repConfirm]

/-- Only a calibration writes the measurements, and only a reset writes more than these. -/
theorem syncEdge_frame (lvl : Bool) (el : Ticks) (s : State) :
    syncEdge lvl el s = s.resetDecoder ∨
    (KeepsFrame s (syncEdge lvl el s) ∧ (syncEdge lvl el s).elapsedMs = s.elapsedMs ∧
      ((syncEdge lvl el s).interval = s.interval ∧ (syncEdge lvl el s).measShift = s.measShift ∨
        s.sync = .waitFall ∧ lvl = false)) := by
  obtain h | ⟨-, -, h⟩ | ⟨hs, hl, h⟩ | ⟨-, -, h⟩ := syncEdge_cases lvl el s <;> rw [h]
  · exact .inr ⟨.refl s, rfl, .inl ⟨rfl, rfl⟩⟩
  · exact .inr ⟨⟨rfl, rfl, rfl, rfl, rfl, rfl, rfl⟩, rfl, .inl ⟨rfl, rfl⟩⟩
  · obtain ⟨-, h⟩ | ⟨-, h⟩ := syncEndPulse_cases el s <;> rw [h]
    · exact .inr ⟨⟨rfl, rfl, rfl, rfl, rfl, rfl, rfl⟩, rfl, .inr ⟨hs, hl⟩⟩
    · exact .inl rfl
  · obtain ⟨-, h⟩ | ⟨-, h⟩ := syncEndGap_cases el s <;> rw [h]
    · exact .inr ⟨⟨rfl, rfl, rfl, rfl, rfl, rfl, rfl⟩, rfl, .inl ⟨rfl, rfl⟩⟩
    · exact .inl rfl

/-- An edge in the repeat window never resets, and only a confirmed repeat writes `elapsed_ms`. -/
theorem repEdge_frame (lvl : Bool) (el : Ticks) (s : State) :
    KeepsFrame s (repEdge lvl el s) ∧
    ((repEdge lvl el s).interval = s.interval ∧ (repEdge lvl el s).measShift = s.measShift) ∧
    ((repEdge lvl el s).elapsedMs = s.elapsedMs ∨ s.rep = .waitRiseEnd ∧ lvl = true) := by
  obtain h | ⟨-, -, h⟩ | ⟨-, -, h⟩ | ⟨hr, hl, h⟩ := repEdge_cases lvl el s <;> rw [h]
  · exact ⟨.refl s, ⟨rfl, rfl⟩, .inl rfl⟩
  · exact ⟨⟨rfl, rfl, rfl, rfl, rfl, rfl, rfl⟩, ⟨rfl, rfl⟩, .inl rfl⟩
  · obtain ⟨-, h⟩ | ⟨-, h⟩ := repEndPulse_cases el s <;> rw [h] <;>
      exact ⟨⟨rfl, rfl, rfl, rfl, rfl, rfl, rfl⟩, ⟨rfl, rfl⟩, .inl rfl⟩
  · obtain ⟨-, h⟩ | ⟨-, h⟩ := repEndGap_cases el s <;> rw [h]
    · exact ⟨repConfirm_keepsFrame s, by simp [repConfirm], .inr ⟨hr, hl⟩⟩
    · exact ⟨⟨rfl, rfl, rfl, rfl, rfl, rfl, rfl⟩, ⟨rfl, rfl⟩, .inl rfl⟩

/-- An EDGE resets the decoder, or keeps the frame; the measurements and `elapsed_ms` change in one case each. -/
theorem exec_edge_frame {lvl : Bool} {el : Ticks} {s t : State} (h : exec (.edge lvl el) s = .next t) :
    t = s.resetDecoder ∨
    (KeepsFrame s t ∧
      (t.interval = s.interval ∧ t.measShift = s.measShift ∨ s.top = .synchronizing ∧ s.sync = .waitFall ∧ lvl = false) ∧
      (t.elapsedMs = s.elapsedMs ∨ s.top = .waitRepeat ∧ s.rep = .waitRiseEnd ∧ lvl = true)) := by
  obtain ⟨-, rfl⟩ | ⟨-, ⟨ht, rfl⟩ | ⟨-, rfl⟩ | ⟨ht, rfl⟩⟩ := execEdge_cases h
  · exact .inr ⟨⟨rfl, rfl, rfl, rfl, rfl, rfl, rfl⟩, .inl ⟨rfl, rfl⟩, .inl rfl⟩
  · exact (syncEdge_frame lvl el s).imp_right fun ⟨k, he, hm⟩ => ⟨k, hm.imp_right (.intro ht), .inl he⟩
  · exact .inr ⟨.refl t, .inl ⟨rfl, rfl⟩, .inl rfl⟩
  · obtain ⟨k, hm, he⟩ := repEdge_frame lvl el s
    exact .inr ⟨k, .inl hm, he.imp_right (.intro ht)⟩

/-! ### The frame of TICK -/

/-- Every raw bit reads as before, but the one at `bits_received` at a third sample while receiving (20_memory.md R61). -/
def KeepsOtherRawBits (s t : State) : Prop :=
  ∀ oob i, s.bitsReceived.toNat < 96 ∧ i ≠ s.bitsReceived.toNat ∨ s.sampleCount.toNat < 2 ∨ s.top ≠ .receivingCommand →
    memRead oob t.raw i = memRead oob s.raw i

theorem KeepsOtherRawBits.of_raw_eq {s t : State} (h : t.raw = s.raw) : KeepsOtherRawBits s t :=
  fun _ _ _ => by rw [h]

/-- The two states agree in the sync state and the measurements. -/
structure KeepsMeasurements (s t : State) : Prop where
  sync : t.sync = s.sync
  interval : t.interval = s.interval
  measShift : t.measShift = s.measShift

/-- The two states agree in the decoded command and the fault register. -/
structure KeepsCommand (s t : State) : Prop where
  lastAddress : t.lastAddress = s.lastAddress
  lastCommand : t.lastCommand = s.lastCommand
  cmdReceived : t.cmdReceived = s.cmdReceived
  fault : t.fault = s.fault

/-- A tick in the repeat window resets the decoder, or touches neither the bitmap nor the measurements nor the command. -/
theorem repTick_frame (s : State) :
    repTick s = s.resetDecoder ∨
    ((repTick s).raw = s.raw ∧ KeepsMeasurements s (repTick s) ∧ KeepsCommand s (repTick s)) := by
  obtain ⟨-, h⟩ | ⟨-, h⟩ := repTick_cases s <;> rw [h]
  · exact .inr ⟨rfl, ⟨rfl, rfl, rfl⟩, ⟨rfl, rfl, rfl, rfl⟩⟩
  · obtain ⟨-, h⟩ | ⟨-, h⟩ := housekeepingTick_cases s <;> rw [h]
    · exact .inl rfl
    · exact .inr ⟨rfl, ⟨rfl, rfl, rfl⟩, ⟨rfl, rfl, rfl, rfl⟩⟩

/-- Storing a raw bit while receiving touches the cell at `bits_received` alone: a third sample comes only after two. -/
theorem keepsOtherRawBits_of_storeRawBit {lvl : Bool} {s t : State} (ht : s.top = .receivingCommand)
    (hc : (accumulate lvl (rearmIfSet s)).sampleCount = 3#2)
    (hr : t.raw = storeRawBit (accumulate lvl (rearmIfSet s))) : KeepsOtherRawBits s t := by
  have hb : (accumulate lvl (rearmIfSet s)).bitsReceived = s.bitsReceived := by simp
  have hraw : (accumulate lvl (rearmIfSet s)).raw = s.raw := by simp
  rintro oob i (⟨h96, hi⟩ | hlt | hne)
  · rw [hr, memRead_storeRawBit_of_ne (hb ▸ h96) (hb ▸ hi), hraw]
  · rw [accumulate_rearmIfSet_sampleCount lvl (by bv_omega)] at hc
    bv_omega
  · exact absurd ht hne

/-- A sampling tick resets the decoder, or keeps every other raw bit and the measurements, and keeps the command unless it
completes a frame. -/
theorem sampleTick_frame (lvl : Bool) {s : State} (ht : s.top = .receivingCommand) :
    (∃ r : State, sampleTick lvl s = r.resetDecoder) ∨
    (KeepsOtherRawBits s (sampleTick lvl s) ∧ KeepsMeasurements s (sampleTick lvl s) ∧
      (KeepsCommand s (sampleTick lvl s) ∨
        (s.bitsReceived = 95#8 ∨ s.bitsReceived = 255#8) ∧ (sampleTick lvl s).top = .waitRepeat)) := by
  obtain ⟨-, h⟩ | ⟨hc, ⟨-, h⟩ | ⟨hb, h | ⟨addr, cmd, h⟩⟩⟩ := sampleTick_outcomes lvl s <;> rw [h]
  · exact .inr ⟨.of_raw_eq (by simp), by constructor <;> simp, .inl (by constructor <;> simp)⟩
  · exact .inr ⟨keepsOtherRawBits_of_storeRawBit ht hc rfl, by constructor <;> simp, .inl (by constructor <;> simp)⟩
  · exact .inl ⟨_, rfl⟩
  · have h95 := bitsReceived_of_nextBitsReceived hb
    rw [accumulate_bitsReceived, rearmIfSet_bitsReceived] at h95
    have hraw := keepsOtherRawBits_of_storeRawBit (t := enterWaitRepeat (storeAndDeliver addr cmd
      (resolveBit (accumulate lvl (rearmIfSet s))))) ht hc (by simp [enterWaitRepeat, storeAndDeliver])
    exact .inr ⟨hraw, by constructor <;> simp [enterWaitRepeat, storeAndDeliver], .inr ⟨h95, rfl⟩⟩

/-- A TICK resets the decoder, or keeps every other raw bit and the measurements, and keeps the command unless it completes
a frame or comes before INIT. -/
theorem exec_tick_frame {lvl : Bool} {s t : State} (h : exec (.tick lvl) s = .next t) :
    (∃ r : State, t = r.resetDecoder) ∨
    (KeepsOtherRawBits s t ∧ KeepsMeasurements s t ∧
      (KeepsCommand s t ∨
        s.top = .receivingCommand ∧ (s.bitsReceived = 95#8 ∨ s.bitsReceived = 255#8) ∧ t.top = .waitRepeat ∨
        s.initialized = false ∧ t.fault = s.fault ||| FaultBit.eventBeforeInit.mask)) := by
  obtain ⟨hi, rfl⟩ | ⟨-, ⟨-, rfl⟩ | ⟨ht, rfl⟩ | ⟨-, rfl⟩⟩ := execTick_cases h
  · exact .inr ⟨.of_raw_eq rfl, ⟨rfl, rfl, rfl⟩, .inr (.inr ⟨hi, rfl⟩)⟩
  · obtain h | h := syncTick_cases s <;> rw [h]
    · exact .inr ⟨.of_raw_eq rfl, ⟨rfl, rfl, rfl⟩, .inl ⟨rfl, rfl, rfl, rfl⟩⟩
    · exact .inl ⟨s, rfl⟩
  · exact (sampleTick_frame lvl ht).imp_right fun ⟨hr, hm, hc⟩ => ⟨hr, hm, hc.imp_right fun hw => .inl ⟨ht, hw⟩⟩
  · exact (repTick_frame s).imp (fun hr => ⟨s, hr⟩) fun ⟨hr, hm, hc⟩ => ⟨.of_raw_eq hr, hm, .inl hc⟩

end Sys2Proof.Machine
end

section
/-! PROOFS. The invariants of 10_state.md R41, top-level state by top-level state, and that each handler keeps them. -/

namespace Sys2Proof.Machine

/-! ### What R41 says in each top-level state -/

/-- What the invariants of R41 say in Synchronizing. -/
structure SynchronizingInvariant (s : State) : Prop where
  sync : s.sync ≠ .done
  rep : s.rep = .waitRise
  raw : s.raw = 0
  bitsReceived : s.bitsReceived = 0
  acc : s.acc = 0
  sampleCount : s.sampleCount = 0
  rearm : s.rearm = false
  cmdReceived : s.cmdReceived = false
  zeroedAtStart : ZeroedAtStart s

/-- What the invariants of R41 say of the frame in ReceivingCommand, whatever the samples of the current raw bit. -/
structure FrameInvariant (s : State) : Prop where
  sync : s.sync = .done
  rep : s.rep = .waitRise
  raw : ∀ i, i < 96 → s.bitsReceived.toNat ≤ i → s.raw.getLsbD i = false
  bitsReceived : s.bitsReceived.toNat ≤ 95
  cmdReceived : s.cmdReceived = false

/-- What the invariants of R41 say in ReceivingCommand. -/
structure ReceivingInvariant (s : State) : Prop extends FrameInvariant s where
  sampleCount : s.sampleCount.toNat ≤ 2
  rearm : s.rearm = true → s.bitsReceived = 0 ∧ s.sampleCount = 0

/-- What the invariants of R41 say in WaitRepeat. -/
structure WindowInvariant (s : State) : Prop where
  sync : s.sync = .done
  bitsReceived : s.bitsReceived = 0
  acc : s.acc = 0
  sampleCount : s.sampleCount = 0
  rearm : s.rearm = false
  cmdReceived : s.cmdReceived = true
  elapsedMs : s.elapsedMs.toNat ≤ s.P.repeatTimeoutMs.toNat ∨ (s.elapsedMs = 50#32 ∧ s.P.repeatTimeoutMs.toNat < 50)

theorem RunInvariant.synchronizing {s : State} (hs : RunInvariant s) (ht : s.top = .synchronizing) :
    SynchronizingInvariant s := by
  obtain ⟨hbits, hsamples, hsync, hrep, hrearm, hraw, hzero, hcmd, -⟩ := hs
  have hrecv : s.top ≠ .receivingCommand := by simp [ht]
  have hwindow : s.top ≠ .waitRepeat := by simp [ht]
  obtain ⟨hcount, hacc⟩ := hsamples.2 hrecv
  exact ⟨fun hd => hsync.1 hd ht, hrep hwindow, hraw.2 ht, hbits.2 hrecv, hacc, hcount,
    Bool.eq_false_iff.2 fun hr => hrecv (hrearm hr).1, Bool.eq_false_iff.2 fun hc => hwindow (hcmd.1 hc), hzero⟩

theorem RunInvariant.of_synchronizing {s : State} (ht : s.top = .synchronizing) (h : SynchronizingInvariant s) :
    RunInvariant s := by
  refine ⟨?bits, ?samples, ?sync, fun _ => h.rep, ?rearm, ?raw, h.zeroedAtStart, ?received, ?elapsed⟩
  case bits => simp [BitsInRange, ht, h.bitsReceived]
  case samples => simp [SamplesInRange, h.sampleCount, h.acc]
  case sync => simp [SyncDone, ht, h.sync]
  case rearm => simp [RearmOnlyFirst, h.rearm]
  case raw => simp [RawCleared, ht, h.raw]
  case received => simp [ReceivedInWindow, ht, h.cmdReceived]
  case elapsed => simp [ElapsedInWindow, ht]

theorem RunInvariant.receivingCommand {s : State} (hs : RunInvariant s) (ht : s.top = .receivingCommand) :
    ReceivingInvariant s := by
  obtain ⟨hbits, hsamples, hsync, hrep, hrearm, hraw, -, hcmd, -⟩ := hs
  have hsynchronizing : s.top ≠ .synchronizing := by simp [ht]
  have hwindow : s.top ≠ .waitRepeat := by simp [ht]
  exact ⟨⟨hsync.2 hsynchronizing, hrep hwindow, hraw.1 ht, hbits.1 ht,
    Bool.eq_false_iff.2 fun hc => hwindow (hcmd.1 hc)⟩, hsamples.1, fun hr => (hrearm hr).2⟩

theorem RunInvariant.of_receivingCommand {s : State} (ht : s.top = .receivingCommand) (h : ReceivingInvariant s) :
    RunInvariant s := by
  refine ⟨?bits, ?samples, ?sync, fun _ => h.rep, fun hr => ⟨ht, h.rearm hr⟩, ?raw, ?zeroed, ?received, ?elapsed⟩
  case bits => simp [BitsInRange, ht, h.bitsReceived]
  case samples => simp [SamplesInRange, ht, h.sampleCount]
  case sync => simp [SyncDone, ht, h.sync]
  case raw => simpa [RawCleared, ht] using h.raw
  case zeroed => simp [ZeroedAtStart, ht]
  case received => simp [ReceivedInWindow, ht, h.cmdReceived]
  case elapsed => simp [ElapsedInWindow, ht]

theorem RunInvariant.waitRepeat {s : State} (hs : RunInvariant s) (ht : s.top = .waitRepeat) : WindowInvariant s := by
  obtain ⟨hbits, hsamples, hsync, -, hrearm, -, -, hcmd, helapsed⟩ := hs
  have hsynchronizing : s.top ≠ .synchronizing := by simp [ht]
  have hrecv : s.top ≠ .receivingCommand := by simp [ht]
  obtain ⟨hcount, hacc⟩ := hsamples.2 hrecv
  exact ⟨hsync.2 hsynchronizing, hbits.2 hrecv, hacc, hcount, Bool.eq_false_iff.2 fun hr => hrecv (hrearm hr).1,
    hcmd.2 ht, helapsed ht⟩

theorem RunInvariant.of_waitRepeat {s : State} (ht : s.top = .waitRepeat) (h : WindowInvariant s) :
    RunInvariant s := by
  refine ⟨?bits, ?samples, ?sync, fun hne => absurd ht hne, ?rearm, ?raw, ?zeroed, ?received, fun _ => h.elapsedMs⟩
  case bits => simp [BitsInRange, ht, h.bitsReceived]
  case samples => simp [SamplesInRange, h.sampleCount, h.acc]
  case sync => simp [SyncDone, ht, h.sync]
  case rearm => simp [RearmOnlyFirst, h.rearm]
  case raw => simp [RawCleared, ht]
  case zeroed => simp [ZeroedAtStart, ht]
  case received => simp [ReceivedInWindow, ht, h.cmdReceived]

/-! ### Reset, from every state (70_reset_and_hazards.md R280, R281) -/

theorem por_inv (P : LegalParams) : RunInvariant (State.por P) :=
  .of_synchronizing rfl ⟨nofun, rfl, rfl, rfl, rfl, rfl, rfl, rfl, fun _ _ => ⟨rfl, rfl, rfl, rfl, rfl, rfl⟩⟩

theorem resetDecoder_inv (s : State) : RunInvariant s.resetDecoder :=
  .of_synchronizing rfl ⟨nofun, rfl, rfl, rfl, rfl, rfl, rfl, rfl, fun _ _ => ⟨rfl, rfl, rfl, rfl, rfl, rfl⟩⟩

/-- At power-on no measurement is made yet. -/
theorem por_calibrated (P : LegalParams) : Calibrated (State.por P) := by
  simp [Calibrated, State.por]

/-- At power-on no sample is taken yet. -/
theorem por_freshSamples (P : LegalParams) : FreshSamples (State.por P) := by
  simp [FreshSamples, State.por]

/-! ### The synchronization detector -/

/-- Outside WaitRise nothing is asked of the measurements. -/
theorem syncStartPulse_inv {s : State} (ht : s.top = .synchronizing) (h : SynchronizingInvariant s) :
    RunInvariant (syncStartPulse s) :=
  .of_synchronizing ht
    ⟨nofun, h.rep, h.raw, h.bitsReceived, h.acc, h.sampleCount, h.rearm, h.cmdReceived, nofun⟩

theorem syncCalibrate_inv (p : Ticks) {s : State} (ht : s.top = .synchronizing) (h : SynchronizingInvariant s) :
    RunInvariant (syncCalibrate p s) :=
  .of_synchronizing ht
    ⟨nofun, h.rep, h.raw, h.bitsReceived, h.acc, h.sampleCount, h.rearm, h.cmdReceived, nofun⟩

/-- A frame begins with an empty bitmap and no sample, as R41 has them while synchronizing. -/
theorem syncComplete_inv {s : State} (h : SynchronizingInvariant s) : RunInvariant (syncComplete s) := by
  have hraw : (syncComplete s).raw = 0 := h.raw
  have hbits : (syncComplete s).bitsReceived = 0 := h.bitsReceived
  have hcount : (syncComplete s).sampleCount = 0 := h.sampleCount
  exact .of_receivingCommand rfl
    { sync := rfl, rep := h.rep, raw := by simp [hraw], bitsReceived := by simp [hbits],
      cmdReceived := h.cmdReceived, sampleCount := by simp [hcount], rearm := fun _ => ⟨hbits, hcount⟩ }

theorem syncEdge_inv (lvl : Bool) (el : Ticks) {s : State} (ht : s.top = .synchronizing) (hs : RunInvariant s) :
    RunInvariant (syncEdge lvl el s) := by
  have h := hs.synchronizing ht
  obtain e | ⟨-, -, e⟩ | ⟨-, -, e⟩ | ⟨-, -, e⟩ := syncEdge_cases lvl el s <;> rw [e]
  · exact hs
  · exact syncStartPulse_inv ht h
  · obtain ⟨-, e⟩ | ⟨-, e⟩ := syncEndPulse_cases el s <;> rw [e]
    · exact syncCalibrate_inv el ht h
    · exact resetDecoder_inv s
  · obtain ⟨-, e⟩ | ⟨-, e⟩ := syncEndGap_cases el s <;> rw [e]
    · exact syncComplete_inv h
    · exact resetDecoder_inv s

theorem syncTick_inv {s : State} (hs : RunInvariant s) : RunInvariant (syncTick s) := by
  obtain e | e := syncTick_cases s <;> rw [e]
  · exact hs
  · exact resetDecoder_inv s

/-! ### The repeat-frame detector -/

/-- In the repeat window R41 leaves the repeat state and the actions free. -/
theorem inv_withRep {s : State} (ht : s.top = .waitRepeat) (hs : RunInvariant s) (r : RepeatState) (l : List Action) :
    RunInvariant { s with rep := r, acts := l } := by
  obtain ⟨hsync, hbits, hacc, hcount, hrearm, hcmd, helapsed⟩ := hs.waitRepeat ht
  exact .of_waitRepeat ht ⟨hsync, hbits, hacc, hcount, hrearm, hcmd, helapsed⟩

/-- A confirmed repeat restarts the window at 0 ms. -/
theorem repConfirm_inv {s : State} (ht : s.top = .waitRepeat) (hs : RunInvariant s) : RunInvariant (repConfirm s) := by
  obtain ⟨hsync, hbits, hacc, hcount, hrearm, hcmd, -⟩ := hs.waitRepeat ht
  refine .of_waitRepeat (by simp [repConfirm, ht]) ⟨?_, ?_, ?_, ?_, ?_, ?_, .inl ?_⟩ <;> simp [repConfirm, *]

theorem repEdge_inv (lvl : Bool) (el : Ticks) {s : State} (ht : s.top = .waitRepeat) (hs : RunInvariant s) :
    RunInvariant (repEdge lvl el s) := by
  obtain e | ⟨-, -, e⟩ | ⟨-, -, e⟩ | ⟨-, -, e⟩ := repEdge_cases lvl el s <;> rw [e]
  · exact hs
  · exact inv_withRep ht hs _ _
  · obtain ⟨-, e⟩ | ⟨-, e⟩ := repEndPulse_cases el s <;> rw [e] <;> exact inv_withRep ht hs _ _
  · obtain ⟨-, e⟩ | ⟨-, e⟩ := repEndGap_cases el s <;> rw [e]
    · exact repConfirm_inv ht hs
    · exact inv_withRep ht hs _ _

/-- A counted housekeeping tick does not go past the timeout. -/
theorem housekeepingTick_inv {s : State} (ht : s.top = .waitRepeat) (hs : RunInvariant s) :
    RunInvariant (housekeepingTick s) := by
  obtain ⟨-, e⟩ | ⟨hle, e⟩ := housekeepingTick_cases s <;> rw [e]
  · exact resetDecoder_inv s
  · obtain ⟨hsync, hbits, hacc, hcount, hrearm, hcmd, -⟩ := hs.waitRepeat ht
    have hsum : (s.elapsedMs + 10#32).toNat ≤ s.P.repeatTimeoutMs.toNat := by
      rw [BitVec.toNat_add]
      exact (Nat.mod_le _ _).trans hle
    exact .of_waitRepeat ht ⟨hsync, hbits, hacc, hcount, hrearm, hcmd, .inl hsum⟩

theorem repTick_inv {s : State} (ht : s.top = .waitRepeat) (hs : RunInvariant s) : RunInvariant (repTick s) := by
  obtain ⟨-, e⟩ | ⟨-, e⟩ := repTick_cases s <;> rw [e]
  · exact inv_withRep ht hs _ _
  · exact housekeepingTick_inv ht hs

/-! ### The bit sampler -/

theorem accumulate_frameInv (lvl : Bool) {s : State} (h : FrameInvariant s) :
    FrameInvariant (accumulate lvl (rearmIfSet s)) := by
  obtain ⟨hsync, hrep, hraw, hbits, hcmd⟩ := h
  constructor <;> simpa

/-- A raw bit that is not the 96th leaves the cells from the new count on at 0. -/
theorem resolveBit_frameInv {s : State} (h : FrameInvariant s) (hb : nextBitsReceived s ≠ 96#8) :
    FrameInvariant (resolveBit s) := by
  obtain ⟨hsync, hrep, hraw, hbits, hcmd⟩ := h
  have hnext : nextBitsReceived s = s.bitsReceived + 1#8 := nextBitsReceived_eq (by bv_omega)
  have hnat : (nextBitsReceived s).toNat = s.bitsReceived.toNat + 1 := by bv_omega
  refine ⟨hsync, hrep, fun i hi hle => ?_, ?_, hcmd⟩
  · rw [resolveBit_bitsReceived, hnat] at hle
    rw [resolveBit_raw, storeRawBit_getLsbD (by omega), if_neg (by omega)]
    exact hraw i hi (by omega)
  · rw [resolveBit_bitsReceived]
    bv_omega

/-- An accepted frame opens the repeat window at 50 ms. -/
theorem enterWaitRepeat_inv {s : State} (addr : Address) (cmd : Command) (hsync : s.sync = .done) (hacc : s.acc = 0)
    (hcount : s.sampleCount = 0) (hrearm : s.rearm = false) :
    RunInvariant (enterWaitRepeat (storeAndDeliver addr cmd s)) := by
  have h50 := Nat.lt_or_ge s.P.repeatTimeoutMs.toNat 50
  refine .of_waitRepeat rfl ⟨?_, rfl, ?_, ?_, ?_, ?_, ?elapsed⟩
  case elapsed => simpa [enterWaitRepeat, storeAndDeliver] using h50.symm
  all_goals simp [enterWaitRepeat, storeAndDeliver, *]

theorem sampleTick_inv (lvl : Bool) {s : State} (ht : s.top = .receivingCommand) (hs : RunInvariant s) :
    RunInvariant (sampleTick lvl s) := by
  have h := hs.receivingCommand ht
  have hframe := accumulate_frameInv lvl h.toFrameInvariant
  have htop : (accumulate lvl (rearmIfSet s)).top = .receivingCommand := by simpa using ht
  have hrearm : (accumulate lvl (rearmIfSet s)).rearm = false := by simp
  obtain ⟨hc, e⟩ | ⟨-, ⟨hb, e⟩ | ⟨-, e | ⟨addr, cmd, e⟩⟩⟩ := sampleTick_outcomes lvl s <;> rw [e]
  · have hle : (accumulate lvl (rearmIfSet s)).sampleCount.toNat ≤ 2 := by bv_omega
    exact .of_receivingCommand htop ⟨hframe, hle, by simp⟩
  · exact .of_receivingCommand htop ⟨resolveBit_frameInv hframe hb, Nat.zero_le 2, by simp⟩
  · exact resetDecoder_inv _
  · exact enterWaitRepeat_inv addr cmd hframe.sync rfl rfl hrearm

/-! ### Every instruction -/

theorem exec_edge_inv {lvl : Bool} {el : Ticks} {s t : State} (h : exec (.edge lvl el) s = .next t)
    (hs : RunInvariant s) : RunInvariant t := by
  obtain ⟨-, rfl⟩ | ⟨-, ⟨ht, rfl⟩ | ⟨-, rfl⟩ | ⟨ht, rfl⟩⟩ := execEdge_cases h
  · exact hs
  · exact syncEdge_inv lvl el ht hs
  · exact hs
  · exact repEdge_inv lvl el ht hs

theorem exec_tick_inv {lvl : Bool} {s t : State} (h : exec (.tick lvl) s = .next t) (hs : RunInvariant s) :
    RunInvariant t := by
  obtain ⟨-, rfl⟩ | ⟨-, ⟨-, rfl⟩ | ⟨ht, rfl⟩ | ⟨ht, rfl⟩⟩ := execTick_cases h
  · exact hs
  · exact syncTick_inv hs
  · exact sampleTick_inv lvl ht hs
  · exact repTick_inv ht hs

/-- The fields R41 does not speak of (the registration, `initialized`, the fault register, the words to come and the
actions) are written freely. -/
theorem exec_inv {i : Instr} {s t : State} (h : exec i s = .next t) (hs : RunInvariant s) : RunInvariant t := by
  cases i with
  | nop => cases h; exact hs
  | edge lvl el => exact exec_edge_inv h hs
  | tick lvl => exact exec_tick_inv h hs
  | init => cases h; exact resetDecoder_inv (((noteRepeatedInit s).act .pinConfig).act .tmrConfig)
  | setcb en ctx => cases h; exact hs

end Sys2Proof.Machine
end

section
/-! PROOFS. The statements about the record of 10_state.md: the invariants of R41, and who writes which field (R20). -/

namespace Sys2Proof.Proofs

open Sys2Proof.Machine

/-- Settles O42: R41 in Synchronizing, with every field 0. -/
theorem reachableInvariantsHoldAtReset : Obligations.ReachableInvariantsHoldAtReset := by
  unfold Obligations.ReachableInvariantsHoldAtReset
  exact fun P => ⟨⟨por_inv P, por_calibrated P, por_freshSamples P⟩, por_inv Config.params, por_calibrated Config.params,
    por_freshSamples Config.params⟩

/-- Settles O43: R41 says one thing in each top-level state, and each handler either resets the decoder or goes from what
it says in one to what it says in the next. -/
theorem stepKeepsTheReachableInvariants : Obligations.StepKeepsTheReachableInvariants := by
  unfold Obligations.StepKeepsTheReachableInvariants
  intro s t hs h
  obtain ⟨-, rfl⟩ | ⟨w, rest, -, ⟨i, -, hi⟩ | ⟨r, -, rfl⟩⟩ := step_cases h
  · exact hs
  · exact exec_inv hi hs
  · exact hs

/-- Settles O52: EDGE and TICK keep all these fields, and an illegal word changes the fault register alone. -/
theorem registrationChangesOnlyByItsOwnWord : Obligations.RegistrationChangesOnlyByItsOwnWord := by
  unfold Obligations.RegistrationChangesOnlyByItsOwnWord
  intro s t w rest hp h
  obtain ⟨hnil, -⟩ | ⟨w', rest', hp', hw⟩ := step_cases h
  · simp [hp] at hnil
  · obtain ⟨rfl, rfl⟩ := List.cons.inj (hp.symm.trans hp')
    obtain ⟨i, hd, hi⟩ | ⟨r, -, rfl⟩ := hw
    · have k := exec_writesOwnRegistration hi
      rw [hd]
      exact ⟨fun hne => k.registration fun en ctx e => hne en ctx (congrArg _ e),
        fun hne => k.initialized fun e => hne (congrArg _ e), k.staysInitialized, k.params, k.pending⟩
    · exact ⟨fun _ => ⟨rfl, rfl⟩, fun _ => rfl, id, rfl, rfl⟩

/-- Settles O53: an edge that does not reset the decoder keeps the bitmap as a whole, so every read of it. -/
theorem edgeLeavesBitmapAndCommandUnlessItResets : Obligations.EdgeLeavesBitmapAndCommandUnlessItResets := by
  unfold Obligations.EdgeLeavesBitmapAndCommandUnlessItResets
  intro s t lvl el h
  have r := exec_edge_keepsRegistration h
  refine (exec_edge_frame h).imp_right fun ⟨k, hmeasure, helapsed⟩ => ?_
  exact ⟨fun oob i => by rw [k.raw], k.bitsReceived, k.acc, k.sampleCount, k.lastAddress, k.lastCommand, k.cmdReceived,
    r.cbValid, r.cbCtx, r.initialized, r.params, r.pending, hmeasure, helapsed⟩

/-- Settles O54: a tick that does not reset the decoder stores at most one raw bit, and ends a frame only with the 96th. -/
theorem tickChangesTheBitmapOnlyAtTheNextRawBit : Obligations.TickChangesTheBitmapOnlyAtTheNextRawBit := by
  unfold Obligations.TickChangesTheBitmapOnlyAtTheNextRawBit
  intro s t lvl h
  have r := exec_tick_keepsRegistration h
  refine ⟨⟨r.cbValid, r.cbCtx, r.initialized, r.params, r.pending⟩, ?_⟩
  obtain ⟨u, rfl⟩ | ⟨hraw, m, hcmd⟩ := exec_tick_frame h
  · exact .inl ⟨rfl, rfl, rfl, rfl, rfl, rfl, by simp⟩
  · exact .inr ⟨hraw, m.sync, m.interval, m.measShift,
      hcmd.imp_left fun k => ⟨k.lastAddress, k.lastCommand, k.cmdReceived, k.fault⟩⟩

end Sys2Proof.Proofs
end

section
/-! PROOFS. The third sample of a raw bit (42_sampler.md R153): the resolved state, and where it goes from there. -/

namespace Sys2Proof.Machine

/-- The state a third sample leaves before the count of raw bits is looked at. -/
theorem resolveBit_accumulate_rearmIfSet_eq (lvl : Bool) (s : State) :
    resolveBit (accumulate lvl (rearmIfSet s)) =
      { s with
        rearm := false, raw := storeRawBit (accumulate lvl (rearmIfSet s)),
        bitsReceived := nextBitsReceived (accumulate lvl (rearmIfSet s)), acc := 0, sampleCount := 0,
        acts := s.acts ++ (if s.rearm then [.tmrContinuous s.interval] else []) } := by
  unfold resolveBit
  rw [accumulate_rearmIfSet_eq]

theorem exec_tick_thirdSample {s : State} (lvl : Bool) (hi : s.initialized = true) (ht : s.top = .receivingCommand)
    (hc : s.sampleCount = 2#2) :
    exec (.tick lvl) s = .next (finishRawBit (resolveBit (accumulate lvl (rearmIfSet s)))) := by
  have hcount : (accumulate lvl (rearmIfSet s)).sampleCount = 3#2 := by
    rw [accumulate_rearmIfSet_sampleCount lvl (by simp [hc]), hc]
    rfl
  obtain ⟨hne, -⟩ | ⟨-, h⟩ := sampleTick_cases lvl s
  · exact absurd hcount hne
  · rw [exec_tick_receivingCommand lvl hi ht, h]

theorem finishRawBit_eq_self {s : State} (h : s.bitsReceived ≠ 96#8) : finishRawBit s = s := if_neg h

/-- The raw bit stored is the AND of the sample and the two before it; the rearm writes neither the bitmap nor `acc`. -/
theorem storeRawBit_accumulate_rearmIfSet_getLsbD (lvl : Bool) {s : State} (h : s.bitsReceived.toNat < 96) (i : Nat) :
    (storeRawBit (accumulate lvl (rearmIfSet s))).getLsbD i =
      if i = s.bitsReceived.toNat then lvl && s.acc.getLsbD 0 && s.acc.getLsbD 1 else s.raw.getLsbD i := by
  have hb : (accumulate lvl (rearmIfSet s)).bitsReceived = s.bitsReceived := by simp
  rw [storeRawBit_getLsbD (hb ▸ h), hb, accumulate_acc, rearmIfSet_acc, resolveVote_shiftInSample, accumulate_raw,
    rearmIfSet_raw]

/-- Below 255 the count of raw bits grows by one; from 255 it is free (log entry 4). -/
theorem nextBitsReceived_accumulate_rearmIfSet_toNat (lvl : Bool) {s : State} (h : s.bitsReceived.toNat < 255) :
    (nextBitsReceived (accumulate lvl (rearmIfSet s))).toNat = s.bitsReceived.toNat + 1 := by
  have hb : (accumulate lvl (rearmIfSet s)).bitsReceived = s.bitsReceived := by simp
  rw [nextBitsReceived_eq (by rw [hb]; bv_omega), hb]
  bv_omega

end Sys2Proof.Machine
end

section
/-! PROOFS. The statements about the raw bitmap of 20_memory.md: the store of a raw bit, and a raw bit without a cell. -/

namespace Sys2Proof.Proofs

open Sys2Proof.Machine

/-- Settles O19: the new count is at most 95, so the third sample ends with the store. -/
theorem thirdSampleStoresTheRawBit : Obligations.ThirdSampleStoresTheRawBit := by
  unfold Obligations.ThirdSampleStoresTheRawBit
  intro s lvl hi ht hc hb
  have hnext := nextBitsReceived_accumulate_rearmIfSet_toNat lvl (s := s) (by omega)
  refine ⟨_, _, fun i _ => storeRawBit_accumulate_rearmIfSet_getLsbD lvl (by omega) i, hnext, ?_⟩
  rw [exec_tick_thirdSample lvl hi ht hc, finishRawBit_eq_self (by rw [resolveBit_bitsReceived]; bv_omega),
    resolveBit_accumulate_rearmIfSet_eq]

/-- Settles O23: below 255 the new count is past 96, so the frame does not complete; from 255 the count is free. -/
theorem rawBitWithoutACellIsCounted : Obligations.RawBitWithoutACellIsCounted := by
  unfold Obligations.RawBitWithoutACellIsCounted
  intro s lvl hi ht hc hb
  have hnext := nextBitsReceived_accumulate_rearmIfSet_toNat lvl (s := s)
  refine ⟨_, _, _, hnext, resolveBit_accumulate_rearmIfSet_eq lvl s, ?_⟩
  rw [exec_tick_thirdSample lvl hi ht hc]
  by_cases h255 : s.bitsReceived.toNat < 255
  · have hcount := hnext h255
    rw [if_pos h255, finishRawBit_eq_self (by rw [resolveBit_bitsReceived]; bv_omega)]
  · rw [if_neg h255]

end Sys2Proof.Proofs
end

section
/-! PROOFS. Decoder and encoder are inverse (30_encoding.md R80–R84, R91), and the words a row of the opcode map
selects (R90). -/

namespace Sys2Proof

/-! ### Two words are equal field by field (30_encoding.md R80) -/

theorem Word.eq_iff_fields {v w : Word} :
    v = w ↔ v.rsv1 = w.rsv1 ∧ v.data = w.data ∧ v.rsv0 = w.rsv0 ∧ v.lvl = w.lvl ∧ v.op = w.op := by
  constructor
  · rintro rfl
    exact ⟨rfl, rfl, rfl, rfl, rfl⟩
  · rintro ⟨h1, hd, h0, hl, ho⟩
    rw [← v.ofFields_fields, h1, hd, h0, hl, ho, w.ofFields_fields]

@[simp] theorem Word.rsv1_and (v w : Word) : Word.rsv1 (v &&& w) = v.rsv1 &&& w.rsv1 := BitVec.extractLsb'_and ..
@[simp] theorem Word.data_and (v w : Word) : Word.data (v &&& w) = v.data &&& w.data := BitVec.extractLsb'_and ..
@[simp] theorem Word.rsv0_and (v w : Word) : Word.rsv0 (v &&& w) = v.rsv0 &&& w.rsv0 := BitVec.extractLsb'_and ..
@[simp] theorem Word.lvl_and (v w : Word) : Word.lvl (v &&& w) = (v.lvl && w.lvl) := BitVec.getLsbD_and
@[simp] theorem Word.op_and (v w : Word) : Word.op (v &&& w) = v.op &&& w.op := BitVec.extractLsb'_and ..

/-! ### Legality, decoder and encoder (30_encoding.md R82, R83, R91) -/

theorem encode_legal (i : Instr) : Legal (encode i) := by
  cases i with
  | nop => exact Laws.EncodesLegally.nop.1
  | edge lvl el => exact (Laws.EncodesLegally.edge lvl el).1
  | tick lvl => exact (Laws.EncodesLegally.tick lvl).1
  | init => exact Laws.EncodesLegally.init.1
  | setcb en ctx => exact (Laws.EncodesLegally.setcb en ctx).1

/-- Where the reserved fields are 0, `op`, `lvl` and `data` make the word. -/
theorem Word.eq_ofFields {w : Word} (h1 : w.rsv1 = 0) (h0 : w.rsv0 = 0) :
    w = Word.ofFields 0 w.data 0 w.lvl w.op := by
  rw [← h1, ← h0, w.ofFields_fields]

theorem Legal.exists_encode {w : Word} (h : Legal w) : ∃ i, w = encode i := by
  obtain ⟨hop, h0, h1, hnone, htick⟩ := h
  have hw := Word.eq_ofFields h1 h0
  have hcases : w.op = 0 ∨ w.op = 1 ∨ w.op = 2 ∨ w.op = 3 ∨ w.op = 4 := by bv_omega
  obtain ho | ho | ho | ho | ho := hcases <;> rw [ho] at hw
  · obtain ⟨hl, hd⟩ := hnone (.inl ho)
    rw [hl, hd] at hw
    exact ⟨.nop, hw⟩
  · exact ⟨.edge w.lvl w.data, hw⟩
  · rw [htick ho] at hw
    exact ⟨.tick w.lvl, hw⟩
  · obtain ⟨hl, hd⟩ := hnone (.inr ho)
    rw [hl, hd] at hw
    exact ⟨.init, hw⟩
  · exact ⟨.setcb w.lvl w.data, hw⟩

theorem legal_iff_exists_encode {w : Word} : Legal w ↔ ∃ i, w = encode i :=
  ⟨Legal.exists_encode, fun ⟨i, hi⟩ => hi ▸ encode_legal i⟩

@[simp] theorem decode_encode (i : Instr) : decode (encode i) = .ok i := by
  cases i with
  | nop => simp [decode, encode]
  | edge lvl el => simp [decode, encode]
  | tick lvl => simp [decode, encode]
  | init => simp [decode, encode]
  | setcb en ctx => simp [decode, encode]

theorem encode_injective : Function.Injective encode := fun i j h => by
  simpa using congrArg decode h

/-- A check the decoder makes on the way to an instruction did not fail. -/
theorem check_passed {c : Prop} [Decidable c] {e : Reject} {x : Except Reject Instr} {i : Instr}
    (h : (if c then .error e else x) = .ok i) : ¬c ∧ x = .ok i := by
  by_cases hc : c
  · rw [if_pos hc] at h
    cases h
  · exact ⟨hc, by rwa [if_neg hc] at h⟩

/-- Each check on the way to an instruction is a conjunct of `Legal`. -/
theorem legal_of_decode {w : Word} {i : Instr} (h : decode w = .ok i) : Legal w := by
  unfold decode at h
  obtain ⟨hop, h⟩ := check_passed h
  obtain ⟨hrsv, h⟩ := check_passed h
  obtain ⟨h0, h1⟩ := not_or.1 hrsv
  refine ⟨Nat.le_of_not_lt hop, not_not.1 h0, not_not.1 h1, ?unread, fun ho => ?tick⟩
  case unread =>
    rintro (ho | ho) <;> rw [ho] at h <;> simpa using (check_passed h).1
  case tick =>
    rw [ho] at h
    simpa using (check_passed h).1

/-- The decoder and the encoder are inverse on the legal words (30_encoding.md R82, R91). -/
theorem decode_eq_ok_iff {w : Word} {i : Instr} : decode w = .ok i ↔ w = encode i := by
  constructor
  · intro h
    obtain ⟨j, rfl⟩ := (legal_of_decode h).exists_encode
    rw [decode_encode] at h
    rw [Except.ok.inj h]
  · rintro rfl
    exact decode_encode i

theorem exists_decode_error_iff {w : Word} : (∃ e, decode w = .error e) ↔ ¬Legal w := by
  simp only [legal_iff_exists_encode, ← decode_eq_ok_iff]
  cases decode w <;> simp

/-! ### The words of a row's mask (30_encoding.md R90) -/

/-- The mask of EDGE and SETCB fixes every field but `lvl` and `data`. -/
theorem and_maskBothOperands_eq_iff {w : Word} {o : BitVec 3} :
    w &&& 0xFFFFFF00000000F7#64 = Word.ofFields 0 0 0 false o ↔ ∃ l d, w = Word.ofFields 0 d 0 l o := by
  have hmask : 0xFFFFFF00000000F7#64 =
      Word.ofFields (BitVec.allOnes 24) 0 (BitVec.allOnes 4) false (BitVec.allOnes 3) := by decide
  rw [hmask]
  simp [-BitVec.reduceAllOnes, Word.eq_iff_fields]

/-- The mask of TICK fixes every field but `lvl`. -/
theorem and_maskLevel_eq_iff {w : Word} {o : BitVec 3} :
    w &&& 0xFFFFFFFFFFFFFFF7#64 = Word.ofFields 0 0 0 false o ↔ ∃ l, w = Word.ofFields 0 0 0 l o := by
  have hmask : 0xFFFFFFFFFFFFFFF7#64 =
      Word.ofFields (BitVec.allOnes 24) (BitVec.allOnes 32) (BitVec.allOnes 4) false (BitVec.allOnes 3) := by decide
  rw [hmask]
  simp [-BitVec.reduceAllOnes, Word.eq_iff_fields]

/-- The mask of NOP and INIT fixes every bit. -/
theorem and_maskAll_eq_iff {w v : Word} : w &&& 0xFFFFFFFFFFFFFFFF#64 = v ↔ w = v := by
  have hmask : 0xFFFFFFFFFFFFFFFF#64 = BitVec.allOnes 64 := by decide
  rw [hmask, BitVec.and_allOnes]

/-! ### The rows of the opcode map (30_encoding.md R90) -/

/-- Every instruction has a row, which its word matches. -/
theorem exists_row_matches_encode (i : Instr) :
    ∃ r ∈ opcodeMap, i.mnemonic = r.mnemonic ∧ r.Matches (encode i) := by
  cases i with
  | nop => exact ⟨opcodeMap[0], List.getElem_mem _, rfl, and_maskAll_eq_iff.2 rfl⟩
  | edge lvl el => exact ⟨opcodeMap[1], List.getElem_mem _, rfl, and_maskBothOperands_eq_iff.2 ⟨lvl, el, rfl⟩⟩
  | tick lvl => exact ⟨opcodeMap[2], List.getElem_mem _, rfl, and_maskLevel_eq_iff.2 ⟨lvl, rfl⟩⟩
  | init => exact ⟨opcodeMap[3], List.getElem_mem _, rfl, and_maskAll_eq_iff.2 rfl⟩
  | setcb en ctx => exact ⟨opcodeMap[4], List.getElem_mem _, rfl, and_maskBothOperands_eq_iff.2 ⟨en, ctx, rfl⟩⟩

/-- A word of a row is the word of an instruction with the row's mnemonic. -/
theorem exists_encode_of_matches {r : OpcodeRow} (hr : r ∈ opcodeMap) {w : Word} (h : r.Matches w) :
    ∃ i, w = encode i ∧ i.mnemonic = r.mnemonic := by
  simp only [opcodeMap, List.mem_cons, List.not_mem_nil, or_false] at hr
  obtain rfl | rfl | rfl | rfl | rfl := hr
  · exact ⟨.nop, and_maskAll_eq_iff.1 h, rfl⟩
  · obtain ⟨lvl, el, hw⟩ := and_maskBothOperands_eq_iff (o := 1).1 h
    exact ⟨.edge lvl el, hw, rfl⟩
  · obtain ⟨lvl, hw⟩ := and_maskLevel_eq_iff (o := 2).1 h
    exact ⟨.tick lvl, hw, rfl⟩
  · exact ⟨.init, and_maskAll_eq_iff.1 h, rfl⟩
  · obtain ⟨en, ctx, hw⟩ := and_maskBothOperands_eq_iff (o := 4).1 h
    exact ⟨.setcb en ctx, hw, rfl⟩

theorem row_eq_of_mnemonic_eq :
    ∀ r ∈ opcodeMap, ∀ r' ∈ opcodeMap, r.mnemonic = r'.mnemonic → r = r' := by decide

theorem matches_iff {r : OpcodeRow} (hr : r ∈ opcodeMap) {w : Word} :
    r.Matches w ↔ ∃ i, w = encode i ∧ i.mnemonic = r.mnemonic := by
  refine ⟨exists_encode_of_matches hr, ?_⟩
  rintro ⟨i, rfl, hi⟩
  obtain ⟨r', hr', hi', h⟩ := exists_row_matches_encode i
  rwa [row_eq_of_mnemonic_eq r hr r' hr' (hi.symm.trans hi')]

theorem exists_row_matches_iff {w : Word} : (∃ r ∈ opcodeMap, r.Matches w) ↔ Legal w := by
  rw [legal_iff_exists_encode]
  constructor
  · rintro ⟨r, hr, h⟩
    obtain ⟨i, hw, -⟩ := exists_encode_of_matches hr h
    exact ⟨i, hw⟩
  · rintro ⟨i, rfl⟩
    obtain ⟨r, hr, -, h⟩ := exists_row_matches_encode i
    exact ⟨r, hr, h⟩

theorem row_eq_of_matches {r r' : OpcodeRow} (hr : r ∈ opcodeMap) (hr' : r' ∈ opcodeMap) {w : Word}
    (h : r.Matches w) (h' : r'.Matches w) : r = r' := by
  obtain ⟨i, hi, hm⟩ := exists_encode_of_matches hr h
  obtain ⟨j, hj, hm'⟩ := exists_encode_of_matches hr' h'
  obtain rfl : i = j := encode_injective (hi.symm.trans hj)
  exact row_eq_of_mnemonic_eq r hr r' hr' (hm.symm.trans hm')

end Sys2Proof

namespace Sys2Proof.Proofs

/-- Settles O2: the fields of the encoded word are the instruction's own. -/
theorem decodeOfEncodeIsIdentity : Obligations.DecodeOfEncodeIsIdentity := by
  unfold Obligations.DecodeOfEncodeIsIdentity
  exact decode_encode

/-- Settles O3: what decodes is legal, so it is the word of some instruction, and decodes to that instruction alone. -/
theorem encodeOfDecodeIsIdentity : Obligations.EncodeOfDecodeIsIdentity := by
  unfold Obligations.EncodeOfDecodeIsIdentity
  exact fun w i h => (decode_eq_ok_iff.1 h).symm

/-- Settles O4: the words of a row are the words of the instructions with its mnemonic. -/
theorem opcodeMapSelectsTheInstruction : Obligations.OpcodeMapSelectsTheInstruction := by
  unfold Obligations.OpcodeMapSelectsTheInstruction
  refine fun w => ⟨fun r hr => ?selects, fun r hr r' hr' => row_eq_of_matches hr hr', exists_row_matches_iff, ?rejects⟩
  case selects => simp only [decode_eq_ok_iff, matches_iff hr]
  case rejects => rw [exists_row_matches_iff, exists_decode_error_iff]

/-- Settles O1: each legal word of R95 is the encoding of its instruction. -/
theorem workedEncodingsDecode : Obligations.WorkedEncodingsDecode := by
  unfold Obligations.WorkedEncodingsDecode
  exact ⟨decode_encode (.edge true 0), decode_encode (.edge false 9000), decode_encode (.edge true 4500),
    decode_encode (.tick false), decode_encode (.tick true), decode_encode (.setcb true 0xC0FFEE),
    decode_encode .nop, decode_encode .init, rfl, rfl⟩

end Sys2Proof.Proofs
end

section
/-! PROOFS. The actions a step issues, said once (30_encoding.md R85), and that the output ports show them (R86). -/

namespace Sys2Proof.Machine

/-! ### What a step issues (30_encoding.md R85) -/

/-- The timer commands a step can issue from `s`: the bounds of the four measurements, the calibrated sample delay and
sample clock, the housekeeping timer and the stop. -/
inductive TimerCommand (s : State) : Action → Prop where
  | syncPulse : TimerCommand s (.tmrOneShot s.P.syncPulseMax)
  | syncGap : TimerCommand s (.tmrOneShot s.P.syncGapMax)
  | firstSample (h : s.sync = .waitRiseEnd) : TimerCommand s (.tmrOneShot s.measShift)
  | sampleClock (h : s.sync = .done) : TimerCommand s (.tmrContinuous s.interval)
  | repPulse : TimerCommand s (.tmrOneShot s.P.repPulseMax)
  | repGap : TimerCommand s (.tmrOneShot s.P.repGapMax)
  | housekeeping : TimerCommand s (.tmrContinuous s.P.hkTicks)
  | stop : TimerCommand s .tmrStop

/-- The action lists of a step from `s`: none, one timer command, a delivery and a timer command, or those of INIT. -/
inductive StepActions (s : State) : List Action → Prop where
  | none : StepActions s []
  | timer {a : Action} (h : TimerCommand s a) : StepActions s [a]
  | deliver (ctx : Context) (addr : Address) (cmd : Command) (rep : Bool) {a : Action} (h : TimerCommand s a) :
      StepActions s [.emit ctx addr cmd rep, a]
  | init : StepActions s [.pinConfig, .tmrConfig, .tmrStop]

theorem TimerCommand.portGroup {s : State} {a : Action} (h : TimerCommand s a) : a.portGroup = 3 := by
  cases h <;> rfl

/-- R9 makes the parameters positive, a calibration the measurements. -/
theorem TimerCommand.positive {s : State} {a : Action} (h : TimerCommand s a) (hcal : Calibrated s) :
    a.PositiveTicks := by
  obtain ⟨-, ⟨hsyncPulse, hsyncGap, hrepPulse, hrepGap, hhk⟩, -⟩ := s.params.legal
  cases h with
  | syncPulse => exact hsyncPulse
  | syncGap => exact hsyncGap
  | firstSample hs => exact (hcal (.inl hs)).2
  | sampleClock hs => exact Nat.le_of_succ_le (hcal (.inr hs)).1
  | repPulse => exact hrepPulse
  | repGap => exact hrepGap
  | housekeeping => exact hhk
  | stop => trivial

theorem StepActions.positive {s : State} {l : List Action} (h : StepActions s l) (hcal : Calibrated s) :
    ∀ a ∈ l, a.PositiveTicks := by
  cases h with
  | none => simp
  | timer ha => simpa using ha.positive hcal
  | deliver ctx addr cmd rep ha => simpa using ha.positive hcal
  | init => simp [Action.PositiveTicks]

theorem StepActions.pairwise_portGroup {s : State} {l : List Action} (h : StepActions s l) :
    l.Pairwise (fun a b => a.portGroup < b.portGroup) := by
  cases h with
  | none => exact .nil
  | timer ha => exact List.pairwise_singleton ..
  | deliver ctx addr cmd rep ha =>
    have hlt : (Action.emit ctx addr cmd rep).portGroup < 3 := Nat.lt_succ_self 2
    simpa [ha.portGroup] using hlt
  | init => decide

/-- The rearm is pending only before the first sample of a frame (R41), so no longer at a third one. -/
theorem rearm_eq_false_of_thirdSample {lvl : Bool} {s : State} (h : ReceivingInvariant s)
    (hc : (accumulate lvl (rearmIfSet s)).sampleCount = 3#2) : s.rearm = false := by
  refine Bool.eq_false_iff.2 fun hr => ?_
  obtain ⟨-, hzero⟩ := h.rearm hr
  rw [accumulate_rearmIfSet_sampleCount lvl (by simp [hzero]), hzero] at hc
  exact absurd hc (by decide)

/-! ### Each handler, from the empty action list (40_dispatch.md R110) -/

section
variable {s : State} (h0 : s.acts = [])
include h0

theorem self_stepActions : StepActions s s.acts := h0 ▸ .none

theorem act_stepActions {t : State} {a : Action} (ht : t.acts = s.acts ++ [a]) (ha : TimerCommand s a) :
    StepActions s t.acts := by
  rw [ht, h0]
  exact .timer ha

theorem resetDecoder_stepActions : StepActions s s.resetDecoder.acts := act_stepActions h0 rfl .stop

theorem repFail_stepActions : StepActions s (repFail s).acts := act_stepActions h0 rfl .housekeeping

/-- A delivery issues its `Emit` only to a registered consumer (40_dispatch.md R118); the housekeeping timer follows. -/
theorem delivered_stepActions {t : State} {addr : Address} {cmd : Command} {rep : Bool}
    (ht : t.acts = (s.deliver addr cmd rep).acts ++ [.tmrContinuous s.P.hkTicks]) : StepActions s t.acts := by
  rw [ht, State.deliver_acts, h0]
  split
  · exact .deliver _ _ _ _ .housekeeping
  · exact .timer .housekeeping

theorem syncEdge_stepActions (lvl : Bool) (el : Ticks) : StepActions s (syncEdge lvl el s).acts := by
  obtain e | ⟨-, -, e⟩ | ⟨-, -, e⟩ | ⟨hs, -, e⟩ := syncEdge_cases lvl el s <;> rw [e]
  · exact self_stepActions h0
  · exact act_stepActions h0 rfl .syncPulse
  · obtain ⟨-, e⟩ | ⟨-, e⟩ := syncEndPulse_cases el s <;> rw [e]
    · exact act_stepActions h0 rfl .syncGap
    · exact resetDecoder_stepActions h0
  · obtain ⟨-, e⟩ | ⟨-, e⟩ := syncEndGap_cases el s <;> rw [e]
    · exact act_stepActions h0 rfl (.firstSample hs)
    · exact resetDecoder_stepActions h0

theorem syncTick_stepActions : StepActions s (syncTick s).acts := by
  obtain e | e := syncTick_cases s <;> rw [e]
  · exact self_stepActions h0
  · exact resetDecoder_stepActions h0

theorem repEdge_stepActions (lvl : Bool) (el : Ticks) : StepActions s (repEdge lvl el s).acts := by
  obtain e | ⟨-, -, e⟩ | ⟨-, -, e⟩ | ⟨-, -, e⟩ := repEdge_cases lvl el s <;> rw [e]
  · exact self_stepActions h0
  · exact act_stepActions h0 rfl .repPulse
  · obtain ⟨-, e⟩ | ⟨-, e⟩ := repEndPulse_cases el s <;> rw [e]
    · exact act_stepActions h0 rfl .repGap
    · exact repFail_stepActions h0
  · obtain ⟨-, e⟩ | ⟨-, e⟩ := repEndGap_cases el s <;> rw [e]
    · exact delivered_stepActions h0 (addr := s.lastAddress) (cmd := s.lastCommand) (rep := true) (by simp [repConfirm])
    · exact repFail_stepActions h0

theorem repTick_stepActions : StepActions s (repTick s).acts := by
  obtain ⟨-, e⟩ | ⟨-, e⟩ := repTick_cases s <;> rw [e]
  · exact repFail_stepActions h0
  · obtain ⟨-, e⟩ | ⟨-, e⟩ := housekeepingTick_cases s <;> rw [e]
    · exact resetDecoder_stepActions h0
    · exact self_stepActions h0

/-- The sample clock starts with the first sample of a frame, so never at the third sample of a raw bit (R41). -/
theorem sampleTick_stepActions (lvl : Bool) (h : ReceivingInvariant s) : StepActions s (sampleTick lvl s).acts := by
  have hrearm := rearm_eq_false_of_thirdSample (lvl := lvl) h
  obtain ⟨-, e⟩ | ⟨hc, ⟨-, e⟩ | ⟨-, e | ⟨addr, cmd, e⟩⟩⟩ := sampleTick_outcomes lvl s <;> rw [e]
  · rw [accumulate_acts, rearmIfSet_acts, h0]
    split
    · exact .timer (.sampleClock h.sync)
    · exact .none
  · have hacts : (resolveBit (accumulate lvl (rearmIfSet s))).acts = [] := by simp [hrearm hc, h0]
    exact hacts ▸ .none
  · exact act_stepActions h0 (by simp [hrearm hc]) .stop
  · exact delivered_stepActions h0 (addr := addr) (cmd := cmd) (rep := false)
      (by simp [enterWaitRepeat, storeAndDeliver, hrearm hc])

end

theorem noteRepeatedInit_acts (s : State) : (noteRepeatedInit s).acts = s.acts := by
  unfold noteRepeatedInit
  split <;> rfl

theorem exec_stepActions {i : Instr} {s t : State} (h : exec i s = .next t) (hs : RunInvariant s) (h0 : s.acts = []) :
    StepActions s t.acts := by
  cases i with
  | nop => cases h; exact self_stepActions h0
  | edge lvl el =>
    obtain ⟨-, rfl⟩ | ⟨-, ⟨-, rfl⟩ | ⟨-, rfl⟩ | ⟨-, rfl⟩⟩ := execEdge_cases h
    · exact self_stepActions h0
    · exact syncEdge_stepActions h0 lvl el
    · exact self_stepActions h0
    · exact repEdge_stepActions h0 lvl el
  | tick lvl =>
    obtain ⟨-, rfl⟩ | ⟨-, ⟨-, rfl⟩ | ⟨ht, rfl⟩ | ⟨-, rfl⟩⟩ := execTick_cases h
    · exact self_stepActions h0
    · exact syncTick_stepActions h0
    · exact sampleTick_stepActions h0 lvl (hs.receivingCommand ht)
    · exact repTick_stepActions h0
  | init =>
    cases h
    simp [noteRepeatedInit_acts, h0, StepActions.init]
  | setcb en ctx => cases h; exact self_stepActions h0

/-- From the state in which the step begins, its word taken. -/
theorem step_stepActions {s t : State} (h : step s = .next t) (hs : RunInvariant s) :
    ∃ rest, StepActions { s with pending := rest, acts := [] } t.acts := by
  obtain ⟨-, rfl⟩ | ⟨w, rest, -, ⟨i, -, hi⟩ | ⟨r, -, rfl⟩⟩ := step_cases h
  · exact ⟨[], .none⟩
  · exact ⟨rest, exec_stepActions hi hs rfl⟩
  · exact ⟨rest, .none⟩

/-! ### The output ports (30_encoding.md R86) -/

/-! Ports that show only actions of groups before `n` leave the ports of the groups from `n` on at 0. -/

section
variable {o : OutputPorts} {n : Nat} (h : ∀ b ∈ o.toActs, b.portGroup < n)
include h

theorem OutputPorts.pinCfg_eq_false (hn : n ≤ 0) : o.pinCfg = false := by
  by_contra hp
  have hlt : 0 < n := h .pinConfig (by simp [toActs, hp])
  omega

theorem OutputPorts.tmrCfg_eq_false (hn : n ≤ 1) : o.tmrCfg = false := by
  by_contra hp
  have hlt : 1 < n := h .tmrConfig (by simp [toActs, hp])
  omega

theorem OutputPorts.evtValid_eq_false (hn : n ≤ 2) : o.evtValid = false := by
  by_contra hp
  have hlt : 2 < n := h (.emit o.evtCtx o.evtAddr o.evtCmd o.evtRep) (by simp [toActs, hp])
  omega

theorem OutputPorts.tmrCmd_eq_zero (hn : n ≤ 3) : o.tmrCmd = 0#2 := by
  have hcases : o.tmrCmd = 0#2 ∨ o.tmrCmd = 1#2 ∨ o.tmrCmd = 2#2 ∨ o.tmrCmd = 3#2 := by bv_omega
  obtain hc | hc | hc | hc := hcases
  · exact hc
  · have hlt : 3 < n := h (.tmrOneShot o.tmrArg) (by simp [toActs, hc])
    omega
  · have hlt : 3 < n := h (.tmrContinuous o.tmrArg) (by simp [toActs, hc])
    omega
  · have hlt : 3 < n := h .tmrStop (by simp [toActs, hc])
    omega

end

theorem Action.portGroup_le_three (a : Action) : a.portGroup ≤ 3 := by
  cases a <;> simp [Action.portGroup]

/-- While no timer command is shown, the ports show the actions of the other three groups. -/
theorem OutputPorts.toActs_of_tmrCmd_eq_zero {o : OutputPorts} (h : o.tmrCmd = 0#2) :
    o.toActs = (if o.pinCfg then [.pinConfig] else []) ++ (if o.tmrCfg then [.tmrConfig] else []) ++
      (if o.evtValid then [.emit o.evtCtx o.evtAddr o.evtCmd o.evtRep] else []) := by
  simp [toActs, h]

/-- An action of a later group than all the ports show is shown after them. -/
theorem OutputPorts.toActs_drive {o : OutputPorts} {a : Action} (h : ∀ b ∈ o.toActs, b.portGroup < a.portGroup) :
    (o.drive a).toActs = o.toActs ++ [a] := by
  have hcmd : o.tmrCmd = 0#2 := tmrCmd_eq_zero h a.portGroup_le_three
  rw [toActs_of_tmrCmd_eq_zero hcmd]
  cases a with
  | pinConfig =>
    have hpin := pinCfg_eq_false h le_rfl
    have htmr := tmrCfg_eq_false h (Nat.zero_le 1)
    have hevt := evtValid_eq_false h (Nat.zero_le 2)
    simp [toActs, drive, hcmd, hpin, htmr, hevt]
  | tmrConfig =>
    have htmr := tmrCfg_eq_false h le_rfl
    have hevt := evtValid_eq_false h (Nat.le_succ 1)
    simp [toActs, drive, hcmd, htmr, hevt]
  | emit ctx addr cmd rep =>
    have hevt := evtValid_eq_false h le_rfl
    simp [toActs, drive, hcmd, hevt]
  | tmrOneShot n => rfl
  | tmrContinuous n => rfl
  | tmrStop => rfl

theorem OutputPorts.toActs_ofActs {l : List Action} (h : l.Pairwise (fun a b => a.portGroup < b.portGroup)) :
    (OutputPorts.ofActs l).toActs = l := by
  induction l using List.reverseRecOn with
  | nil => rfl
  | append_singleton l a ih =>
    obtain ⟨hl, -, hlt⟩ := List.pairwise_append.1 h
    have hread := ih hl
    unfold OutputPorts.ofActs at hread ⊢
    rw [List.foldl_concat, toActs_drive, hread]
    rw [hread]
    exact fun b hb => hlt b hb a (List.mem_singleton_self a)

end Sys2Proof.Machine

namespace Sys2Proof.Proofs

open Sys2Proof.Machine

/-- Settles O47: every timer command a step can issue is a parameter R9 makes positive, or a calibrated measurement. -/
theorem timerCommandsArePositive : Obligations.TimerCommandsArePositive := by
  unfold Obligations.TimerCommandsArePositive
  intro s t hs hcal h
  obtain ⟨rest, hacts⟩ := step_stepActions h hs
  exact hacts.positive hcal

/-- Settles O48: a step issues its actions in port order, and ports driven in that order show each of them. -/
theorem actionsFitTheOutputPorts : Obligations.ActionsFitTheOutputPorts := by
  unfold Obligations.ActionsFitTheOutputPorts
  intro s t hs h
  obtain ⟨rest, hacts⟩ := step_stepActions h hs
  exact ⟨hacts.pairwise_portGroup, OutputPorts.toActs_ofActs hacts.pairwise_portGroup⟩

end Sys2Proof.Proofs
end

section
/-! PROOFS. The statements about the dispatch of a word (40_dispatch.md R110–R113), and which edges read `elapsed` (R117). -/

namespace Sys2Proof.Machine

/-! ### The word of a step (40_dispatch.md R110) -/

theorem step_of_pending {s : State} {w : Word} {rest : List Word} (h : s.pending = w :: rest) :
    step s = stepWord w { s with pending := rest, acts := [] } := by
  simp [step, State.takeWord, h]

theorem stepWord_of_decode {w : Word} {i : Instr} (h : decode w = .ok i) (s : State) : stepWord w s = exec i s := by
  simp [stepWord, h]

theorem exec_nop (s : State) : exec .nop s = .next s := rfl

/-! ### Edges that do not read `elapsed` (40_dispatch.md R117) -/

/-- The two rules of 41_sync.md R130 that read `elapsed` need a falling edge in WaitFall and a rising one in WaitRiseEnd. -/
theorem syncEdge_elapsed_irrelevant {s : State} {lvl : Bool} (hf : s.sync = .waitFall → lvl = true)
    (hg : s.sync = .waitRiseEnd → lvl = false) (el el' : Ticks) : syncEdge lvl el s = syncEdge lvl el' s := by
  unfold syncEdge
  cases hs : s.sync with
  | waitRise => cases lvl <;> rfl
  | waitFall => rw [hf hs]
  | waitRiseEnd => rw [hg hs]
  | done => rfl

/-- The two rules of 44_repeat.md R190 that read `elapsed` need a falling edge in WaitFall and a rising one in WaitRiseEnd. -/
theorem repEdge_elapsed_irrelevant {s : State} {lvl : Bool} (hf : s.rep = .waitFall → lvl = true)
    (hg : s.rep = .waitRiseEnd → lvl = false) (el el' : Ticks) : repEdge lvl el s = repEdge lvl el' s := by
  unfold repEdge
  cases hr : s.rep with
  | waitRise => cases lvl <;> rfl
  | waitFall => rw [hf hr]
  | waitRiseEnd => rw [hg hr]
  | fault => rfl

theorem exec_edge_elapsed_irrelevant {s : State} {lvl : Bool} (h : ¬ReadsElapsed s lvl) (el el' : Ticks) :
    exec (.edge lvl el) s = exec (.edge lvl el') s := by
  cases hi : s.initialized with
  | false => rw [exec_edge_beforeInit lvl el hi, exec_edge_beforeInit lvl el' hi]
  | true =>
    cases ht : s.top with
    | synchronizing =>
      have hf : s.sync = .waitFall → lvl = true := fun hs =>
        Bool.eq_true_of_not_eq_false fun hl => h ⟨hi, .inl ⟨ht, hs, hl⟩⟩
      have hg : s.sync = .waitRiseEnd → lvl = false := fun hs =>
        Bool.eq_false_of_not_eq_true fun hl => h ⟨hi, .inr (.inl ⟨ht, hs, hl⟩)⟩
      rw [exec_edge_synchronizing lvl el hi ht, exec_edge_synchronizing lvl el' hi ht,
        syncEdge_elapsed_irrelevant hf hg el el']
    | receivingCommand => rw [exec_edge_receivingCommand lvl el hi ht, exec_edge_receivingCommand lvl el' hi ht]
    | waitRepeat =>
      have hf : s.rep = .waitFall → lvl = true := fun hr =>
        Bool.eq_true_of_not_eq_false fun hl => h ⟨hi, .inr (.inr (.inl ⟨ht, hr, hl⟩))⟩
      have hg : s.rep = .waitRiseEnd → lvl = false := fun hr =>
        Bool.eq_false_of_not_eq_true fun hl => h ⟨hi, .inr (.inr (.inr ⟨ht, hr, hl⟩))⟩
      rw [exec_edge_waitRepeat lvl el hi ht, exec_edge_waitRepeat lvl el' hi ht, repEdge_elapsed_irrelevant hf hg el el']

/-- Only the bit sampler takes the level of a tick (40_dispatch.md R113). -/
theorem exec_tick_level_irrelevant {s : State} (h : s.top ≠ .receivingCommand) (lvl lvl' : Bool) :
    exec (.tick lvl) s = exec (.tick lvl') s := by
  cases hi : s.initialized with
  | false => rw [exec_tick_beforeInit lvl hi, exec_tick_beforeInit lvl' hi]
  | true =>
    cases ht : s.top with
    | synchronizing => rw [exec_tick_synchronizing lvl hi ht, exec_tick_synchronizing lvl' hi ht]
    | receivingCommand => exact absurd ht h
    | waitRepeat => rw [exec_tick_waitRepeat lvl hi ht, exec_tick_waitRepeat lvl' hi ht]

end Sys2Proof.Machine

namespace Sys2Proof.Proofs

open Sys2Proof.Machine

/-- Settles O51: each handler reads `elapsed` in two of its sub-states only, each on one direction of the edge, and no
handler of a tick but the sampler takes the level. -/
theorem operandsAreReadOnlyWhereARuleSaysSo : Obligations.OperandsAreReadOnlyWhereARuleSaysSo := by
  unfold Obligations.OperandsAreReadOnlyWhereARuleSaysSo
  exact fun s lvl lvl' el el' =>
    ⟨fun h => exec_edge_elapsed_irrelevant h el el', fun h => exec_tick_level_irrelevant h lvl lvl'⟩

/-- Settles O5: a step takes the next word, and a word that decodes has the effect of its instruction. -/
theorem stepRunsTheDecodedInstruction : Obligations.StepRunsTheDecodedInstruction := by
  unfold Obligations.StepRunsTheDecodedInstruction
  intro s w rest i hp hd
  rw [step_of_pending hp, stepWord_of_decode hd]

/-- Settles O8: the all-zero word is the encoding of NOP. -/
theorem nopChangesNothing : Obligations.NopChangesNothing := by
  unfold Obligations.NopChangesNothing
  intro s rest
  have hd : decode 0#64 = .ok .nop := decode_encode .nop
  refine ⟨exec_nop s, ?_⟩
  rw [step_of_pending rfl, stepWord_of_decode hd, exec_nop]

/-- Settles O11: before INIT both handlers only raise `EVENT_BEFORE_INIT`, whose mask is bit 1. -/
theorem eventBeforeInitIsIgnored : Obligations.EventBeforeInitIsIgnored := by
  unfold Obligations.EventBeforeInitIsIgnored
  exact fun s lvl el hi => ⟨exec_edge_beforeInit lvl el hi, exec_tick_beforeInit lvl hi⟩

end Sys2Proof.Proofs
end

section
/-! PROOFS. The synchronization detector (41_sync.md R130–R142): one equation a cell of its tables, the header calibration
in numbers, and a run of edges that ends a short header pulse. -/

namespace Sys2Proof.Machine

/-! ### The table of edges (41_sync.md R130–R139) -/

theorem syncEdge_waitRise_rising {s : State} (el : Ticks) (h : s.sync = .waitRise) :
    syncEdge true el s = syncStartPulse s := by simp [syncEdge, h]

theorem syncEdge_waitRise_falling {s : State} (el : Ticks) (h : s.sync = .waitRise) : syncEdge false el s = s := by
  simp [syncEdge, h]

theorem syncEdge_waitFall_rising {s : State} (el : Ticks) (h : s.sync = .waitFall) : syncEdge true el s = s := by
  simp [syncEdge, h]

theorem syncEdge_waitFall_falling {s : State} (p : Ticks) (h : s.sync = .waitFall) :
    syncEdge false p s = syncEndPulse p s := by simp [syncEdge, h]

theorem syncEdge_waitRiseEnd_rising {s : State} (g : Ticks) (h : s.sync = .waitRiseEnd) :
    syncEdge true g s = syncEndGap g s := by simp [syncEdge, h]

theorem syncEdge_waitRiseEnd_falling {s : State} (el : Ticks) (h : s.sync = .waitRiseEnd) :
    syncEdge false el s = s := by simp [syncEdge, h]

theorem syncEdge_done {s : State} (lvl : Bool) (el : Ticks) (h : s.sync = .done) : syncEdge lvl el s = s := by
  simp [syncEdge, h]

theorem syncEndPulse_of_lt {p : Ticks} {s : State} (h : s.P.syncPulseMin.toNat < p.toNat) :
    syncEndPulse p s = syncCalibrate p s := if_pos h

theorem syncEndPulse_of_le {p : Ticks} {s : State} (h : p.toNat ≤ s.P.syncPulseMin.toNat) :
    syncEndPulse p s = s.resetDecoder := if_neg (Nat.not_lt.2 h)

theorem syncEdge_shortPulse {p : Ticks} {s : State} (hs : s.sync = .waitFall)
    (h : p.toNat ≤ s.P.syncPulseMin.toNat) : syncEdge false p s = s.resetDecoder := by
  rw [syncEdge_waitFall_falling p hs, syncEndPulse_of_le h]

theorem syncEndGap_of_lt {g : Ticks} {s : State} (h : s.P.syncGapMin.toNat < g.toNat) :
    syncEndGap g s = syncComplete s := if_pos h

theorem syncEndGap_of_le {g : Ticks} {s : State} (h : g.toNat ≤ s.P.syncGapMin.toNat) :
    syncEndGap g s = s.resetDecoder := if_neg (Nat.not_lt.2 h)

/-! ### The timer expiry (41_sync.md R140) -/

theorem syncTick_eq (s : State) :
    syncTick s = if s.sync = .waitFall ∨ s.sync = .waitRiseEnd then s.resetDecoder else s := by
  unfold syncTick
  cases s.sync <;> simp

/-! ### The header calibration in numbers (41_sync.md R133, R141) -/

/-- The two nested floor divisions compose. -/
theorem sampleInterval_toNat_eq_div (p : Ticks) : (sampleInterval p).toNat = p.toNat / 48 := by
  rw [sampleInterval_toNat, Nat.div_div_eq_div_mul]

theorem measurementShift_toNat_eq_half (p : Ticks) : (measurementShift p).toNat = (sampleInterval p).toNat / 2 := by
  rw [measurementShift_toNat, sampleInterval_toNat]

theorem measurementShift_toNat_eq_div (p : Ticks) : (measurementShift p).toNat = p.toNat / 96 := by
  rw [measurementShift_toNat_eq_half, sampleInterval_toNat_eq_div, Nat.div_div_eq_div_mul]

/-- A header pulse above a minimum of at least 95 (00_scope.md R9) is at least 96 ticks long. -/
theorem calibration_positive {s : State} {p : Ticks} (h : s.P.syncPulseMin.toNat < p.toNat) :
    2 ≤ (sampleInterval p).toNat ∧ 1 ≤ (measurementShift p).toNat := by
  obtain ⟨hmin, -, -⟩ := s.params.legal
  have hp : 96 ≤ p.toNat := hmin.trans_lt h
  rw [sampleInterval_toNat_eq_div, measurementShift_toNat_eq_div]
  omega

/-! ### A short header pulse (41_sync.md R142) -/

theorem step_edge_synchronizing {s t : State} {lvl : Bool} {el : Ticks} {rest : List Word}
    (hp : s.pending = encode (.edge lvl el) :: rest) (hi : s.initialized = true) (ht : s.top = .synchronizing)
    (hedge : syncEdge lvl el { s with pending := rest, acts := [] } = t) : step s = .next t := by
  rw [step_of_pending hp, stepWord_of_decode (decode_encode _), ← hedge]
  exact exec_edge_synchronizing lvl el hi ht

theorem runTrace_succ {s t : State} (hstep : step s = .next t) (n : Nat) (h : List Action) :
    runTrace (n + 1) s h = runTrace n t (h ++ t.acts) := by
  simp [runTrace, hstep]

/-- None of the first `n` steps leaves Synchronizing or reaches the gap measurement, and the `n`th ends in WaitRise. -/
def AvoidsGapUntilWaitRise (n : Nat) (s : State) (h : List Action) : Prop :=
  (∀ k ≤ n, ∃ t h', runTrace k s h = some (t, h') ∧ t.top = .synchronizing ∧ t.sync ≠ .waitRiseEnd) ∧
  ∃ t h', runTrace n s h = some (t, h') ∧ t.sync = .waitRise

theorem AvoidsGapUntilWaitRise.zero {s : State} (ht : s.top = .synchronizing) (hs : s.sync = .waitRise)
    (h : List Action) : AvoidsGapUntilWaitRise 0 s h := by
  refine ⟨fun k hk => ?_, s, h, rfl, hs⟩
  obtain rfl := Nat.le_zero.1 hk
  exact ⟨s, h, rfl, ht, by simp [hs]⟩

theorem AvoidsGapUntilWaitRise.succ {n : Nat} {s t : State} {h : List Action} (ht : s.top = .synchronizing)
    (hs : s.sync ≠ .waitRiseEnd) (hstep : step s = .next t) (hrun : AvoidsGapUntilWaitRise n t (h ++ t.acts)) :
    AvoidsGapUntilWaitRise (n + 1) s h := by
  obtain ⟨hprefix, hlast⟩ := hrun
  refine ⟨fun k hk => ?_, by rwa [runTrace_succ hstep]⟩
  cases k with
  | zero => exact ⟨s, h, rfl, ht, hs⟩
  | succ k =>
    rw [runTrace_succ hstep]
    exact hprefix k (Nat.le_of_succ_le_succ hk)

/-- The header pulse is being measured, and `p` is too short for one. -/
structure MeasuresShortPulse (p : Ticks) (s : State) : Prop where
  initialized : s.initialized = true
  top : s.top = .synchronizing
  sync : s.sync = .waitFall
  short : p.toNat ≤ s.P.syncPulseMin.toNat

/-- The first rising edge starts the measurement. -/
theorem step_rising_of_waitRise {p e : Ticks} {s : State} {rest : List Word} (hi : s.initialized = true)
    (ht : s.top = .synchronizing) (hs : s.sync = .waitRise) (hshort : p.toNat ≤ s.P.syncPulseMin.toNat)
    (hp : s.pending = encode (.edge true e) :: rest) :
    ∃ t, step s = .next t ∧ MeasuresShortPulse p t ∧ t.pending = rest :=
  ⟨_, step_edge_synchronizing hp hi ht (syncEdge_waitRise_rising e hs), ⟨hi, ht, rfl, hshort⟩, rfl⟩

/-- A further rising edge leaves the measurement going. -/
theorem MeasuresShortPulse.step_rising {p e : Ticks} {s : State} {rest : List Word} (hm : MeasuresShortPulse p s)
    (hp : s.pending = encode (.edge true e) :: rest) :
    ∃ t, step s = .next t ∧ MeasuresShortPulse p t ∧ t.pending = rest :=
  ⟨_, step_edge_synchronizing hp hm.initialized hm.top (syncEdge_waitFall_rising e hm.sync),
    ⟨hm.initialized, hm.top, hm.sync, hm.short⟩, rfl⟩

/-- The falling edge resets the decoder. -/
theorem MeasuresShortPulse.step_falling {p : Ticks} {s : State} {rest : List Word} (hm : MeasuresShortPulse p s)
    (hp : s.pending = encode (.edge false p) :: rest) :
    ∃ t, step s = .next t ∧ t.top = .synchronizing ∧ t.sync = .waitRise :=
  ⟨_, step_edge_synchronizing hp hm.initialized hm.top (syncEdge_shortPulse hm.sync hm.short), rfl, rfl⟩

theorem MeasuresShortPulse.avoidsGap {p : Ticks} {s : State} (hm : MeasuresShortPulse p s) (es : List Ticks)
    (rest : List Word) (h : List Action)
    (hp : s.pending = (es.map fun x => encode (.edge true x)) ++ encode (.edge false p) :: rest) :
    AvoidsGapUntilWaitRise (es.length + 1) s h := by
  have hgap : s.sync ≠ .waitRiseEnd := by simp [hm.sync]
  induction es generalizing s h with
  | nil =>
    obtain ⟨t, hstep, ht, hs⟩ := hm.step_falling hp
    exact .succ hm.top hgap hstep (.zero ht hs _)
  | cons e es ih =>
    obtain ⟨t, hstep, hmt, hpt⟩ := hm.step_rising hp
    exact .succ hm.top hgap hstep (ih hmt _ hpt (by simp [hmt.sync]))

end Sys2Proof.Machine

namespace Sys2Proof.Proofs

open Sys2Proof.Machine

/-- Settles O17: after the first rising edge the pulse is being measured, and by induction over the further ones it still
is when the falling edge resets the decoder. -/
theorem shortHeaderPulseNeverAdvances : Obligations.ShortHeaderPulseNeverAdvances := by
  unfold Obligations.ShortHeaderPulseNeverAdvances
  intro s e es p rest hi ht hs hshort hp
  obtain ⟨t, hstep, hm, hpt⟩ := step_rising_of_waitRise hi ht hs hshort hp
  exact AvoidsGapUntilWaitRise.succ ht (by simp [hs]) hstep (hm.avoidsGap es rest _ hpt)

/-- Settles O12: the cell of R130 for a rising edge in WaitRise. -/
theorem risingEdgeStartsTheHeaderPulse : Obligations.RisingEdgeStartsTheHeaderPulse := by
  unfold Obligations.RisingEdgeStartsTheHeaderPulse
  intro s el hi ht hs
  rw [exec_edge_synchronizing true el hi ht, syncEdge_waitRise_rising el hs]
  rfl

/-- Settles O13: the calibrated values are the pulse width by 48 and by 96, and R9 makes them positive. -/
theorem headerPulseCalibratesOrResets : Obligations.HeaderPulseCalibratesOrResets := by
  unfold Obligations.HeaderPulseCalibratesOrResets
  intro s p hi ht hs
  rw [exec_edge_synchronizing false p hi ht, syncEdge_waitFall_falling p hs]
  refine ⟨fun hlt => ?above, fun hle => by rw [syncEndPulse_of_le hle]⟩
  obtain ⟨hinterval, hshift⟩ := calibration_positive hlt
  have hdiv := sampleInterval_toNat_eq_div p
  refine ⟨sampleInterval p, measurementShift p, sampleInterval_toNat p, hdiv, measurementShift_toNat_eq_half p,
    measurementShift_toNat_eq_div p, by omega, by omega, hinterval, hshift, ?_⟩
  rw [syncEndPulse_of_lt hlt]
  rfl

/-- Settles O14: the cell of R130 for a rising edge in WaitRiseEnd, on both sides of the gap minimum. -/
theorem headerGapCompletesOrResets : Obligations.HeaderGapCompletesOrResets := by
  unfold Obligations.HeaderGapCompletesOrResets
  intro s g hi ht hs
  rw [exec_edge_synchronizing true g hi ht, syncEdge_waitRiseEnd_rising g hs]
  refine ⟨fun hlt => ?_, fun hle => by rw [syncEndGap_of_le hle]⟩
  rw [syncEndGap_of_lt hlt]
  rfl

/-- Settles O15: the cells of R130 and R140 that keep the state, and R116. -/
theorem otherEdgesBeforeAFrameAreIgnored : Obligations.OtherEdgesBeforeAFrameAreIgnored := by
  unfold Obligations.OtherEdgesBeforeAFrameAreIgnored
  refine fun s el hi => ⟨fun ht hs => ?waitRise, fun ht hs => ?waitFall, fun ht hs => ?waitRiseEnd,
    fun ht hs lvl => ⟨?doneEdge, ?doneTick⟩, fun ht lvl => exec_edge_receivingCommand lvl el hi ht⟩
  case waitRise => rw [exec_edge_synchronizing false el hi ht, syncEdge_waitRise_falling el hs]
  case waitFall => rw [exec_edge_synchronizing true el hi ht, syncEdge_waitFall_rising el hs]
  case waitRiseEnd => rw [exec_edge_synchronizing false el hi ht, syncEdge_waitRiseEnd_falling el hs]
  case doneEdge => rw [exec_edge_synchronizing lvl el hi ht, syncEdge_done lvl el hs]
  case doneTick => rw [exec_tick_synchronizing lvl hi ht, syncTick_eq, if_neg (by simp [hs])]

/-- Settles O16: the table of R140. -/
theorem expiryAbandonsTheHeaderMeasurement : Obligations.ExpiryAbandonsTheHeaderMeasurement := by
  unfold Obligations.ExpiryAbandonsTheHeaderMeasurement
  intro s lvl hi ht
  rw [exec_tick_synchronizing lvl hi ht, syncTick_eq]

end Sys2Proof.Proofs
end

section
/-! PROOFS. The calibration (41_sync.md R133, R136) and the fresh samples (42_sampler.md R152): that each handler keeps
them. -/

namespace Sys2Proof.Machine

/-! ### The calibration -/

theorem KeepsMeasurements.calibrated {s t : State} (k : KeepsMeasurements s t) (h : Calibrated s) : Calibrated t := by
  simpa only [Calibrated, k.sync, k.interval, k.measShift] using h

theorem resetDecoder_calibrated (s : State) : Calibrated s.resetDecoder := by simp [Calibrated]

theorem syncEdge_calibrated (lvl : Bool) (el : Ticks) {s : State} (h : Calibrated s) :
    Calibrated (syncEdge lvl el s) := by
  obtain e | ⟨-, -, e⟩ | ⟨-, -, e⟩ | ⟨hs, -, e⟩ := syncEdge_cases lvl el s <;> rw [e]
  · exact h
  · simp [Calibrated, syncStartPulse]
  · obtain ⟨hlt, e⟩ | ⟨-, e⟩ := syncEndPulse_cases el s <;> rw [e]
    · exact fun _ => calibration_positive hlt
    · exact resetDecoder_calibrated s
  · obtain ⟨-, e⟩ | ⟨-, e⟩ := syncEndGap_cases el s <;> rw [e]
    · exact fun _ => h (.inl hs)
    · exact resetDecoder_calibrated s

theorem repEdge_keepsMeasurements (lvl : Bool) (el : Ticks) (s : State) : KeepsMeasurements s (repEdge lvl el s) := by
  obtain e | ⟨-, -, e⟩ | ⟨-, -, e⟩ | ⟨-, -, e⟩ := repEdge_cases lvl el s <;> rw [e]
  · exact ⟨rfl, rfl, rfl⟩
  · exact ⟨rfl, rfl, rfl⟩
  · obtain ⟨-, e⟩ | ⟨-, e⟩ := repEndPulse_cases el s <;> rw [e] <;> exact ⟨rfl, rfl, rfl⟩
  · obtain ⟨-, e⟩ | ⟨-, e⟩ := repEndGap_cases el s <;> rw [e]
    · constructor <;> simp [repConfirm]
    · exact ⟨rfl, rfl, rfl⟩

theorem exec_edge_calibrated {lvl : Bool} {el : Ticks} {s t : State} (he : exec (.edge lvl el) s = .next t)
    (h : Calibrated s) : Calibrated t := by
  obtain ⟨-, rfl⟩ | ⟨-, ⟨-, rfl⟩ | ⟨-, rfl⟩ | ⟨-, rfl⟩⟩ := execEdge_cases he
  · exact h
  · exact syncEdge_calibrated lvl el h
  · exact h
  · exact (repEdge_keepsMeasurements lvl el s).calibrated h

theorem exec_calibrated {i : Instr} {s t : State} (he : exec i s = .next t) (h : Calibrated s) : Calibrated t := by
  cases i with
  | nop => cases he; exact h
  | edge lvl el => exact exec_edge_calibrated he h
  | tick lvl =>
    obtain ⟨r, rfl⟩ | ⟨-, k, -⟩ := exec_tick_frame he
    · exact resetDecoder_calibrated r
    · exact k.calibrated h
  | init => cases he; exact resetDecoder_calibrated (((noteRepeatedInit s).act .pinConfig).act .tmrConfig)
  | setcb en ctx => cases he; exact h

/-! ### The fresh samples -/

theorem freshSamples_of_zero {s : State} (hacc : s.acc = 0) (hcount : s.sampleCount = 0) : FreshSamples s := by
  simp [FreshSamples, hacc, hcount]

theorem resetDecoder_freshSamples (s : State) : FreshSamples s.resetDecoder := freshSamples_of_zero rfl rfl

theorem KeepsFrame.freshSamples {s t : State} (k : KeepsFrame s t) (h : FreshSamples s) : FreshSamples t := by
  simpa only [FreshSamples, k.acc, k.sampleCount] using h

/-- One more sample makes one more bit. -/
theorem shiftInSample_lt {acc : BitVec 32} {n : Nat} (lvl : Bool) (h : acc.toNat < 2 ^ n) :
    (shiftInSample acc lvl).toNat < 2 ^ (n + 1) := by
  rw [shiftInSample_toNat, Nat.pow_succ]
  have hmod := Nat.mod_le (2 * acc.toNat + lvl.toNat) (2 ^ 32)
  have hlvl := lvl.toNat_le
  omega

/-- A first or second sample adds a bit to `acc` and one to the count; a third one leaves both at 0. -/
theorem sampleTick_freshSamples (lvl : Bool) {s : State} (hcount : s.sampleCount.toNat ≤ 2) (h : FreshSamples s) :
    FreshSamples (sampleTick lvl s) := by
  obtain ⟨-, e⟩ | ⟨-, ⟨-, e⟩ | ⟨-, e | ⟨addr, cmd, e⟩⟩⟩ := sampleTick_outcomes lvl s <;> rw [e]
  · have hnext : (s.sampleCount + 1#2).toNat = s.sampleCount.toNat + 1 := by bv_omega
    rw [FreshSamples, accumulate_rearmIfSet_sampleCount lvl (by bv_omega), hnext, accumulate_acc, rearmIfSet_acc]
    exact shiftInSample_lt lvl h
  · exact freshSamples_of_zero rfl rfl
  · exact resetDecoder_freshSamples _
  · apply freshSamples_of_zero <;> simp [enterWaitRepeat, storeAndDeliver]

theorem repTick_freshSamples {s : State} (h : FreshSamples s) : FreshSamples (repTick s) := by
  obtain ⟨-, e⟩ | ⟨-, e⟩ := repTick_cases s <;> rw [e]
  · exact h
  · obtain ⟨-, e⟩ | ⟨-, e⟩ := housekeepingTick_cases s <;> rw [e]
    · exact resetDecoder_freshSamples s
    · exact h

theorem exec_tick_freshSamples {lvl : Bool} {s t : State} (he : exec (.tick lvl) s = .next t)
    (hcount : s.sampleCount.toNat ≤ 2) (h : FreshSamples s) : FreshSamples t := by
  obtain ⟨-, rfl⟩ | ⟨-, ⟨-, rfl⟩ | ⟨-, rfl⟩ | ⟨-, rfl⟩⟩ := execTick_cases he
  · exact h
  · obtain e | e := syncTick_cases s <;> rw [e]
    · exact h
    · exact resetDecoder_freshSamples s
  · exact sampleTick_freshSamples lvl hcount h
  · exact repTick_freshSamples h

theorem exec_freshSamples {i : Instr} {s t : State} (he : exec i s = .next t) (hcount : s.sampleCount.toNat ≤ 2)
    (h : FreshSamples s) : FreshSamples t := by
  cases i with
  | nop => cases he; exact h
  | edge lvl el =>
    obtain rfl | ⟨k, -, -⟩ := exec_edge_frame he
    · exact resetDecoder_freshSamples s
    · exact k.freshSamples h
  | tick lvl => exact exec_tick_freshSamples he hcount h
  | init => cases he; exact resetDecoder_freshSamples (((noteRepeatedInit s).act .pinConfig).act .tmrConfig)
  | setcb en ctx => cases he; exact h

end Sys2Proof.Machine

namespace Sys2Proof.Proofs

open Sys2Proof.Machine

/-- Settles O44: only a pulse above the minimum calibrates; but for a reset only the sampler writes `acc` and its count,
and R41 keeps the count where two bits hold the next one. -/
theorem stepKeepsCalibrationAndFreshSamples : Obligations.StepKeepsCalibrationAndFreshSamples := by
  unfold Obligations.StepKeepsCalibrationAndFreshSamples
  intro s t hstep
  obtain ⟨-, rfl⟩ | ⟨w, rest, -, ⟨i, -, hi⟩ | ⟨r, -, rfl⟩⟩ := step_cases hstep
  · exact ⟨id, fun _ => id⟩
  · refine ⟨fun hcal => exec_calibrated hi hcal, fun hs hfresh => ?_⟩
    obtain ⟨-, ⟨hcount, -⟩, -⟩ := hs
    exact exec_freshSamples hi hcount hfresh
  · exact ⟨id, fun _ => id⟩

end Sys2Proof.Proofs
end

section
/-! PROOFS. The sampling tick as an equation (42_sampler.md R150–R155): the first two samples of a raw bit, the delivery of
a command, and the end of a frame. -/

namespace Sys2Proof.Machine

/-- The first or second sample of a raw bit, as the sum of R152 fits the count (42_sampler.md R150–R152). -/
theorem exec_tick_accumulates {s : State} (lvl : Bool) (hi : s.initialized = true) (ht : s.top = .receivingCommand)
    (hc : s.sampleCount.toNat < 2) :
    exec (.tick lvl) s = .next
      { s with
        rearm := false, acc := shiftInSample s.acc lvl, sampleCount := s.sampleCount + 1#2,
        acts := s.acts ++ (if s.rearm then [.tmrContinuous s.interval] else []) } := by
  have hne : s.sampleCount ≠ 3#2 := by bv_omega
  have hcount := accumulate_rearmIfSet_sampleCount lvl hne
  have hnext : nextSampleCount lvl (rearmIfSet s) = s.sampleCount + 1#2 := hcount
  obtain ⟨-, h⟩ | ⟨h3, -⟩ := sampleTick_cases lvl s
  · rw [exec_tick_receivingCommand lvl hi ht, h, accumulate_rearmIfSet_eq, hnext]
  · bv_omega

/-- Counting a first or second sample, as a number (42_sampler.md R152). -/
theorem sampleCount_add_one_toNat {c : BitVec 2} (h : c.toNat < 2) : (c + 1#2).toNat = c.toNat + 1 := by bv_omega

/-- `Deliver` as one update: the action or the fault bit, by the registration (40_dispatch.md R118). -/
theorem deliver_eq (s : State) (addr : Address) (cmd : Command) (rep : Bool) :
    s.deliver addr cmd rep =
      { s with
        fault := if s.cbValid then s.fault else s.fault ||| 0b1000#4,
        acts := s.acts ++ (if s.cbValid then [.emit s.cbCtx addr cmd rep] else []) } := by
  unfold State.deliver
  cases h : s.cbValid with
  | true => simp [State.act, h]
  | false => simp [State.raise, FaultBit.mask, FaultBit.index, h]

/-- The success path of a complete frame as one update (42_sampler.md R155; 43_frame_decoder.md R175). -/
theorem enterWaitRepeat_storeAndDeliver_eq (s : State) (addr : Address) (cmd : Command) :
    enterWaitRepeat (storeAndDeliver addr cmd s) =
      { s with
        top := .waitRepeat, bitsReceived := 0, elapsedMs := 50, lastAddress := addr, lastCommand := cmd,
        cmdReceived := true, fault := if s.cbValid then s.fault else s.fault ||| 0b1000#4,
        acts := s.acts ++ (if s.cbValid then [.emit s.cbCtx addr cmd false] else []) ++
          [.tmrContinuous s.P.hkTicks] } := by
  unfold storeAndDeliver
  rw [deliver_eq]
  rfl

/-- The third sample of the 96th raw bit ends in the decode (42_sampler.md R150, R154, R155). -/
theorem exec_tick_lastSample {s : State} (lvl : Bool) (hi : s.initialized = true) (ht : s.top = .receivingCommand)
    (hc : s.sampleCount = 2#2) (hb : s.bitsReceived = 95#8) :
    exec (.tick lvl) s = .next (frameComplete (resolveBit (accumulate lvl (rearmIfSet s)))) := by
  have hnext := nextBitsReceived_accumulate_rearmIfSet_toNat lvl (s := s) (by simp [hb])
  have h96 : (resolveBit (accumulate lvl (rearmIfSet s))).bitsReceived = 96#8 := by
    rw [resolveBit_bitsReceived]
    bv_omega
  rw [exec_tick_thirdSample lvl hi ht hc, finishRawBit, if_pos h96]

theorem frameComplete_of_none {s : State} (h : decodeFrame s.P.rawOobBit s.raw = none) :
    frameComplete s = s.resetDecoder := by
  simp only [frameComplete, h]

theorem frameComplete_of_some {s : State} {addr : Address} {cmd : Command}
    (h : decodeFrame s.P.rawOobBit s.raw = some (addr, cmd)) :
    frameComplete s = enterWaitRepeat (storeAndDeliver addr cmd s) := by
  simp only [frameComplete, h]

/-! ### What a sampling tick that completes no frame does, field by field -/

/-- A sample taken without the end of a frame: the block goes on receiving, and the rearm has been issued if it was due
(42_sampler.md R150, R151). -/
structure TakesSample (s t : State) : Prop where
  initialized : t.initialized = true
  top : t.top = .receivingCommand
  rearm : t.rearm = false
  acts : t.acts = s.acts ++ (if s.rearm then [.tmrContinuous s.interval] else [])

/-- The first or second sample of a raw bit (42_sampler.md R152). -/
structure AccumulatesSample (lvl : Bool) (s t : State) : Prop extends TakesSample s t where
  acc : t.acc = shiftInSample s.acc lvl
  sampleCount : t.sampleCount.toNat = s.sampleCount.toNat + 1
  bitsReceived : t.bitsReceived = s.bitsReceived
  raw : t.raw = s.raw

/-- The third sample of a raw bit (42_sampler.md R153). -/
structure StoresRawBit (lvl : Bool) (s t : State) : Prop extends TakesSample s t where
  acc : t.acc = 0
  sampleCount : t.sampleCount = 0
  bitsReceived : t.bitsReceived.toNat = s.bitsReceived.toNat + 1
  raw : ∀ i < 96, t.raw.getLsbD i =
    if i = s.bitsReceived.toNat then lvl && s.acc.getLsbD 0 && s.acc.getLsbD 1 else s.raw.getLsbD i

theorem exec_tick_accumulatesSample {s : State} (lvl : Bool) (hi : s.initialized = true)
    (ht : s.top = .receivingCommand) (hc : s.sampleCount.toNat < 2) :
    ∃ t, exec (.tick lvl) s = .next t ∧ AccumulatesSample lvl s t :=
  ⟨_, exec_tick_accumulates lvl hi ht hc, ⟨hi, ht, rfl, rfl⟩, rfl, sampleCount_add_one_toNat hc, rfl, rfl⟩

theorem exec_tick_storesRawBit {s : State} (lvl : Bool) (hi : s.initialized = true) (ht : s.top = .receivingCommand)
    (hc : s.sampleCount = 2#2) (hb : s.bitsReceived.toNat < 95) :
    ∃ t, exec (.tick lvl) s = .next t ∧ StoresRawBit lvl s t := by
  obtain ⟨r, b, hr, hb', h⟩ := Proofs.thirdSampleStoresTheRawBit s lvl hi ht hc hb
  exact ⟨_, h, ⟨hi, ht, rfl, rfl⟩, rfl, rfl, hb', hr⟩

end Sys2Proof.Machine

namespace Sys2Proof.Proofs

open Sys2Proof.Machine

/-- Settles O18: the count stays below 3, so the sampling tick ends with the accumulation. -/
theorem samplingTickAccumulates : Obligations.SamplingTickAccumulates := by
  unfold Obligations.SamplingTickAccumulates
  intro s lvl hi ht hc
  exact ⟨_, _, shiftInSample_toNat s.acc lvl, sampleCount_add_one_toNat hc, exec_tick_accumulates lvl hi ht hc⟩

/-- Settles O20: the stored image is the third sample's, and the decoder's answer chooses the reset or the delivery. -/
theorem completeFrameIsDecodedAndDelivered : Obligations.CompleteFrameIsDecodedAndDelivered := by
  unfold Obligations.CompleteFrameIsDecodedAndDelivered
  rintro s lvl sent hi ht hc hb rfl
  have h95 : s.bitsReceived.toNat = 95 := by simp [hb]
  refine ⟨storeRawBit (accumulate lvl (rearmIfSet s)), fun i _ => ?cells, fun hd => ?rejected, fun addr cmd hd => ?accepted⟩
  case cells => rw [storeRawBit_accumulate_rearmIfSet_getLsbD lvl (by omega), h95]
  case rejected =>
    rw [exec_tick_lastSample lvl hi ht hc hb, frameComplete_of_none (by simpa using hd),
      resolveBit_accumulate_rearmIfSet_eq]
    rfl
  case accepted =>
    rw [exec_tick_lastSample lvl hi ht hc hb, frameComplete_of_some (by simpa using hd),
      resolveBit_accumulate_rearmIfSet_eq, enterWaitRepeat_storeAndDeliver_eq]

/-- Settles O21: two samples accumulate, and the third stores the AND of all three whatever `acc` held before. -/
theorem rawBitIsTheAndOfThreeSamples : Obligations.RawBitIsTheAndOfThreeSamples := by
  unfold Obligations.RawBitIsTheAndOfThreeSamples
  intro s a b c hi ht hc hb
  obtain ⟨t, first, h1⟩ := exec_tick_accumulatesSample a hi ht (by simp [hc])
  obtain ⟨u, second, h2⟩ := exec_tick_accumulatesSample b h1.initialized h1.top (by simp [h1.sampleCount, hc])
  have hbits : u.bitsReceived = s.bitsReceived := h2.bitsReceived.trans h1.bitsReceived
  have hcount : u.sampleCount.toNat = 2 := by simp [h2.sampleCount, h1.sampleCount, hc]
  obtain ⟨v, third, h3⟩ := exec_tick_storesRawBit c h2.initialized h2.top (by bv_omega) (hbits ▸ hb)
  refine ⟨t, u, v, first, second, third, ?_, hbits ▸ h3.bitsReceived, h3.sampleCount, h3.acc⟩
  calc v.raw.getLsbD s.bitsReceived.toNat
      = (c && u.acc.getLsbD 0 && u.acc.getLsbD 1) := by rw [h3.raw _ (by omega), hbits, if_pos rfl]
    _ = (c && b && a) := by
        rw [h2.acc, shiftInSample_getLsbD _ _ 0 (by omega), shiftInSample_getLsbD _ _ 1 (by omega), h1.acc,
          shiftInSample_getLsbD _ _ _ (by omega)]
        rfl
    _ = (a && b && c) := by ac_rfl

end Sys2Proof.Proofs
end

section
/-! PROOFS. The block beside its collaborators under ideal timing (42_sampler.md R157; 60_exceptions.md R251): what the
timer does in one tick, what the presentation of an expiry does, and which samples the block holds at each tick. -/

namespace Sys2Proof.Machine

/-! ### One tick of the timer (60_exceptions.md R251) -/

theorem Timer.tick_oneShot_of_ne {n : Ticks} {c d : Nat} (h : c + 1 ≠ n.toNat) :
    Timer.tick ⟨.oneShot n, c, d⟩ = ⟨.oneShot n, c + 1, d⟩ := if_neg h

theorem Timer.tick_oneShot_of_eq {n : Ticks} {c d : Nat} (h : c + 1 = n.toNat) :
    Timer.tick ⟨.oneShot n, c, d⟩ = ⟨.stopped, c + 1, d + 1⟩ := if_pos h

theorem Timer.tick_continuous_of_not_dvd {n : Ticks} {c d : Nat} (h : ¬n.toNat ∣ c + 1) :
    Timer.tick ⟨.continuous n, c, d⟩ = ⟨.continuous n, c + 1, d⟩ := if_neg fun e => h (Nat.dvd_of_mod_eq_zero e)

theorem Timer.tick_continuous_of_dvd {n : Ticks} {c d : Nat} (h : n.toNat ∣ c + 1) :
    Timer.tick ⟨.continuous n, c, d⟩ = ⟨.continuous n, c + 1, d + 1⟩ := if_pos (Nat.mod_eq_zero_of_dvd h)

/-! ### One tick of ideal timing -/

/-- The block runs the presented instruction from the empty action list, ahead of the words that wait, and the timer takes
the actions of the step (40_dispatch.md R110, 70_reset_and_hazards.md R286). -/
theorem System.present_encode {y : System} {i : Instr} {t : State} (h : exec i { y.block with acts := [] } = .next t) :
    ∃ pin, y.present (encode i) = some ⟨t, t.acts.foldl Timer.apply y.timer, pin⟩ := by
  have hstep : step (y.block.presentNext (encode i)) = .next t :=
    (step_of_pending rfl).trans ((stepWord_of_decode (decode_encode i) _).trans h)
  exact ⟨t.acts.foldl Pin.apply y.pin, by simp only [System.present, hstep]⟩

/-- A tick of time at which nothing falls due. -/
theorem System.idealTick_of_due_eq_zero {y : System} (lvl : Bool) (h : y.timer.tick.due = 0) :
    ∃ pin, y.idealTick lvl = some ⟨y.block, y.timer.tick, pin⟩ :=
  ⟨_, if_pos h⟩

/-- A tick of time at which one expiry falls due: its TICK word is presented with the level of the line. -/
theorem System.idealTick_of_due_eq_one {y : System} {lvl : Bool} {t : State} (h : y.timer.tick.due = 1)
    (ht : exec (.tick lvl) { y.block with acts := [] } = .next t) :
    ∃ pin, y.idealTick lvl = some ⟨t, t.acts.foldl Timer.apply { y.timer.tick with due := 0 }, pin⟩ := by
  obtain ⟨pin, hp⟩ := System.present_encode
    (y := ⟨y.block, { y.timer.tick with due := 0 }, { y.pin with level := lvl }⟩) ht
  exact ⟨pin, by simp only [System.idealTick, System.presentTick, h, Nat.one_ne_zero, if_false, Nat.sub_self, hp]⟩

/-! ### The samples the block holds -/

/-- The block has taken the first `c` samples of the sequence `v` and no more: the complete groups of three are in the
bitmap, the rest in `acc`, the newest at bit 0 (42_sampler.md R152, R153, R156). -/
structure HoldsSamples (v : Nat → Bool) (c : Nat) (s : State) : Prop where
  initialized : s.initialized = true
  top : s.top = .receivingCommand
  count : 3 * s.bitsReceived.toNat + s.sampleCount.toNat = c
  sampleCount : s.sampleCount.toNat ≤ 2
  acc : ∀ i < s.sampleCount.toNat, s.acc.getLsbD i = v (c - 1 - i)
  raw : ∀ j < s.bitsReceived.toNat, s.raw.getLsbD j = (v (3 * j) && v (3 * j + 1) && v (3 * j + 2))

theorem HoldsSamples.accumulates {v : Nat → Bool} {c : Nat} {s t : State} (h : HoldsSamples v c s)
    (hc : s.sampleCount.toNat < 2) (ht : AccumulatesSample (v c) s t) : HoldsSamples v (c + 1) t := by
  have hcount := h.count
  refine ⟨ht.initialized, ht.top, ?_, ?_, fun i hi => ?acc, ?raw⟩
  · rw [ht.bitsReceived, ht.sampleCount]; omega
  · rw [ht.sampleCount]; omega
  case acc =>
    rw [ht.sampleCount] at hi
    rw [ht.acc, shiftInSample_getLsbD _ _ i (by omega)]
    cases i with
    | zero => rfl
    | succ i =>
      rw [if_neg (by omega), Nat.add_sub_cancel, h.acc i (by omega)]
      congr 1
      omega
  case raw =>
    rw [ht.bitsReceived, ht.raw]
    exact h.raw

theorem HoldsSamples.storesRawBit {v : Nat → Bool} {c : Nat} {s t : State} (h : HoldsSamples v c s)
    (hc : s.sampleCount.toNat = 2) (hb : s.bitsReceived.toNat < 95) (ht : StoresRawBit (v c) s t) :
    HoldsSamples v (c + 1) t := by
  have hcount := h.count
  refine ⟨ht.initialized, ht.top, ?_, ?_, fun i hi => ?acc, fun j hj => ?raw⟩
  · rw [ht.bitsReceived, ht.sampleCount, ← hcount, hc]; rfl
  · rw [ht.sampleCount]; simp
  case acc => simp [ht.sampleCount] at hi
  case raw =>
    rw [ht.bitsReceived] at hj
    rw [ht.raw j (by omega)]
    by_cases hlast : j = s.bitsReceived.toNat
    · have h0 : s.acc.getLsbD 0 = v (3 * j + 1) := (h.acc 0 (by omega)).trans (by congr 1; omega)
      have h1 : s.acc.getLsbD 1 = v (3 * j) := (h.acc 1 (by omega)).trans (by congr 1; omega)
      rw [if_pos hlast, h0, h1, show c = 3 * j + 2 by omega]
      ac_rfl
    · rw [if_neg hlast]
      exact h.raw j (by omega)

/-- One more sample, while it does not complete the frame (42_sampler.md R150–R153). -/
theorem HoldsSamples.exec_tick {v : Nat → Bool} {c : Nat} {s : State} (h : HoldsSamples v c s) (hc : c < 287) :
    ∃ t, exec (.tick (v c)) s = .next t ∧ HoldsSamples v (c + 1) t ∧ TakesSample s t := by
  have hcount := h.count
  have hle := h.sampleCount
  by_cases h2 : s.sampleCount.toNat < 2
  · obtain ⟨t, e, ht⟩ := exec_tick_accumulatesSample (v c) h.initialized h.top h2
    exact ⟨t, e, h.accumulates h2 ht, ht.toTakesSample⟩
  · obtain ⟨t, e, ht⟩ := exec_tick_storesRawBit (v c) h.initialized h.top (by bv_omega) (by omega)
    exact ⟨t, e, h.storesRawBit (by omega) (by omega) ht, ht.toTakesSample⟩

theorem HoldsSamples.withActs {v : Nat → Bool} {c : Nat} {s : State} (h : HoldsSamples v c s) (l : List Action) :
    HoldsSamples v c { s with acts := l } :=
  ⟨h.initialized, h.top, h.count, h.sampleCount, h.acc, h.raw⟩

/-- A tick of ideal timing at which the expiry of sample `c` falls due: the sample is taken, and the timer goes on, or starts
as the sample clock if the rearm flag was set (42_sampler.md R150, R151). -/
theorem HoldsSamples.idealTick {v : Nat → Bool} {c : Nat} {y : System} (h : HoldsSamples v c y.block) (hc : c < 287)
    (hdue : y.timer.tick.due = 1) :
    ∃ z, y.idealTick (v c) = some z ∧ HoldsSamples v (c + 1) z.block ∧ z.block.rearm = false ∧
      z.timer = if y.block.rearm then ⟨.continuous y.block.interval, 0, 0⟩ else { y.timer.tick with due := 0 } := by
  obtain ⟨t, e, ht, htakes⟩ := (h.withActs []).exec_tick hc
  obtain ⟨pin, hz⟩ := System.idealTick_of_due_eq_one hdue e
  refine ⟨_, hz, ht, htakes.rearm, ?_⟩
  rw [htakes.acts]
  cases y.block.rearm <;> simp [Timer.apply]

/-! ### From the edge that completed synchronization -/

/-- The block as the completed synchronization leaves it, with its one-shot just started, for a header pulse of `p` ticks
(41_sync.md R133, R136). -/
structure StartsSampling (p : Ticks) (y : System) : Prop where
  initialized : y.block.initialized = true
  top : y.block.top = .receivingCommand
  rearm : y.block.rearm = true
  bitsReceived : y.block.bitsReceived = 0
  sampleCount : y.block.sampleCount = 0
  interval : y.block.interval = sampleInterval p
  positive : 1 ≤ (measurementShift p).toNat
  timer : y.timer = ⟨.oneShot (measurementShift p), 0, 0⟩

/-- The sample clock `d` ticks after the first sample: it has run through `d / interval` more samples
(42_sampler.md R157). -/
structure SampleClock (p : Ticks) (v : Nat → Bool) (d : Nat) (z : System) : Prop where
  samples : HoldsSamples v (d / (sampleInterval p).toNat + 1) z.block
  rearm : z.block.rearm = false
  timer : z.timer = ⟨.continuous (sampleInterval p), d, 0⟩

section
variable {p : Ticks} {y : System} (hy : StartsSampling p y) (line : Nat → Bool)
include hy

theorem StartsSampling.holdsSamples (v : Nat → Bool) : HoldsSamples v 0 y.block where
  initialized := hy.initialized
  top := hy.top
  count := by simp [hy.bitsReceived, hy.sampleCount]
  sampleCount := by simp [hy.sampleCount]
  acc := by simp [hy.sampleCount]
  raw := by simp [hy.bitsReceived]

/-- Until the one-shot expires, only its count changes. -/
theorem StartsSampling.idealTicks_of_lt {n : Nat} (hn : n < (measurementShift p).toNat) :
    ∃ pin, y.idealTicks line n = some ⟨y.block, ⟨.oneShot (measurementShift p), n, 0⟩, pin⟩ := by
  induction n with
  | zero => exact ⟨y.pin, by rw [← hy.timer]; rfl⟩
  | succ n ih =>
    obtain ⟨pin, h⟩ := ih (by omega)
    have htick := Timer.tick_oneShot_of_ne (n := measurementShift p) (c := n) (d := 0) (by omega)
    have step := System.idealTick_of_due_eq_zero (line (n + 1))
      (y := ⟨y.block, ⟨.oneShot (measurementShift p), n, 0⟩, pin⟩) (by rw [htick])
    rw [htick] at step
    simpa only [System.idealTicks, h, Option.bind_some] using step

/-- The first sample is taken where the one-shot expires, and starts the sample clock. -/
theorem StartsSampling.idealTicks_firstSample :
    ∃ z, y.idealTicks line (measurementShift p).toNat = some z ∧
      SampleClock p (fun k => line (sampleTime p k)) 0 z := by
  obtain ⟨m, hm⟩ : ∃ m, (measurementShift p).toNat = m + 1 := ⟨_, (Nat.sub_add_cancel hy.positive).symm⟩
  obtain ⟨pin, h⟩ := hy.idealTicks_of_lt line (n := m) (by omega)
  have htick := Timer.tick_oneShot_of_eq (n := measurementShift p) (c := m) (d := 0) hm.symm
  obtain ⟨z, hz, hs, hr, ht⟩ := HoldsSamples.idealTick
    (y := ⟨y.block, ⟨.oneShot (measurementShift p), m, 0⟩, pin⟩)
    (hy.holdsSamples fun k => line (sampleTime p k)) (by omega) (by rw [htick])
  rw [if_pos hy.rearm, hy.interval] at ht
  refine ⟨z, ?_, by simpa using hs, hr, ht⟩
  rw [hm, System.idealTicks, h, Option.bind_some, ← hz]
  simp [sampleTime, hm]

end

/-- The interval is at least twice the shift, so the sample clock has a period (41_sync.md R133). -/
theorem sampleInterval_pos {p : Ticks} (h : 1 ≤ (measurementShift p).toNat) : 0 < (sampleInterval p).toNat := by
  rw [measurementShift_toNat_eq_half] at h
  omega

/-- One tick of the sample clock: a sample at each multiple of the interval, and nothing between. -/
theorem SampleClock.idealTick {p : Ticks} {line : Nat → Bool} {d : Nat} {z : System}
    (h : SampleClock p (fun k => line (sampleTime p k)) d z) (hd : (d + 1) / (sampleInterval p).toNat < 287) :
    ∃ z', z.idealTick (line ((measurementShift p).toNat + d + 1)) = some z' ∧
      SampleClock p (fun k => line (sampleTime p k)) (d + 1) z' := by
  have hdiv := Nat.succ_div (a := d) (b := (sampleInterval p).toNat)
  by_cases hdvd : (sampleInterval p).toNat ∣ d + 1
  · have htick := Timer.tick_continuous_of_dvd (d := 0) hdvd
    rw [if_pos hdvd] at hdiv
    have htime : sampleTime p (d / (sampleInterval p).toNat + 1) = (measurementShift p).toNat + d + 1 := by
      rw [sampleTime, ← hdiv, Nat.div_mul_cancel hdvd, Nat.add_assoc]
    obtain ⟨z', hz, hs, hr, ht⟩ := h.samples.idealTick (by omega) (by rw [h.timer, htick])
    rw [h.rearm, h.timer, htick] at ht
    exact ⟨z', htime ▸ hz, hdiv ▸ hs, hr, ht⟩
  · have htick := Timer.tick_continuous_of_not_dvd (d := 0) hdvd
    rw [if_neg hdvd, Nat.add_zero] at hdiv
    obtain ⟨pin, hz⟩ := System.idealTick_of_due_eq_zero (line ((measurementShift p).toNat + d + 1)) (y := z)
      (by rw [h.timer, htick])
    exact ⟨_, hz, hdiv ▸ h.samples, h.rearm, by rw [h.timer, htick]⟩

/-- The sample clock at every tick from the first sample on, short of the last sample of a frame. -/
theorem StartsSampling.idealTicks_sampleClock {p : Ticks} {y : System} (hy : StartsSampling p y) (line : Nat → Bool)
    (d : Nat) (hd : d / (sampleInterval p).toNat < 287) :
    ∃ z, y.idealTicks line ((measurementShift p).toNat + d) = some z ∧
      SampleClock p (fun k => line (sampleTime p k)) d z := by
  induction d with
  | zero => exact hy.idealTicks_firstSample line
  | succ d ih =>
    obtain ⟨z, hz, hclock⟩ := ih (Nat.lt_of_le_of_lt (Nat.div_le_div_right d.le_succ) hd)
    obtain ⟨z', hz', hclock'⟩ := hclock.idealTick hd
    exact ⟨z', by rw [← Nat.add_assoc, System.idealTicks, hz]; exact hz', hclock'⟩

end Sys2Proof.Machine

namespace Sys2Proof.Proofs

open Sys2Proof.Machine

/-- Settles O58: the one-shot runs `meas_shift` ticks without effect, its expiry starts the sample clock, and by induction
over the ticks the block then holds one sample for each multiple of `interval` passed. -/
theorem samplesAreTakenAtTheIdealTimes : Obligations.SamplesAreTakenAtTheIdealTimes := by
  unfold Obligations.SamplesAreTakenAtTheIdealTimes
  intro y line p n hi ht hrearm hbits hcount hint hshift hpos htimer
  have hy : StartsSampling p y := ⟨hi, ht, hrearm, hbits, hcount, hint, hpos, hshift ▸ htimer⟩
  refine ⟨fun hn => ?before, fun k hk hle hlt => ?after⟩
  case before =>
    obtain ⟨pin, h⟩ := hy.idealTicks_of_lt line (by simpa [sampleTime] using hn)
    exact ⟨_, h, rfl⟩
  case after =>
    rw [sampleTime] at hle hlt
    obtain ⟨d, rfl⟩ : ∃ d, n = (measurementShift p).toNat + d := Nat.exists_eq_add_of_le (by omega)
    have hk' : d / (sampleInterval p).toNat = k := Nat.div_eq_of_lt_le (by omega) (by omega)
    obtain ⟨z, hz, hclock⟩ := hy.idealTicks_sampleClock line d (hk' ▸ hk)
    have hs := hk' ▸ hclock.samples
    refine ⟨z, hz, hs.top, hs.count, fun j hj => hs.raw j ?_⟩
    have hcount := hs.count
    have hle := hs.sampleCount
    omega

end Sys2Proof.Proofs
end

section
/-! PROOFS. The frame decoder: one logical bit (43_frame_decoder.md R171, R172) and the parse of 32 of them (R170, R173),
said through the units an assembler line writes for them (30_encoding.md R94). -/

namespace Sys2Proof.Machine

/-! ### One logical bit -/

/-- `LogicalBit` accepts exactly the units of a logical bit, which the mark of the next one ends where the bit is 0. -/
theorem logicalBit_eq_some_iff {oob : Bool} {raw : RawBitmap} {c adv : Nat} {b : Bool} :
    logicalBit oob raw c = some (b, adv) ↔
      adv = (logicalUnits b).length ∧ memRead oob raw c = true ∧ memRead oob raw (c + 1) = false ∧
        memRead oob raw (c + 2) = !b ∧ (b = true → memRead oob raw (c + 3) = false) := by
  unfold logicalBit logicalUnits
  cases b with
  | false => grind
  | true => grind

theorem logicalBit_eq_none_iff {oob : Bool} {raw : RawBitmap} {c : Nat} :
    logicalBit oob raw c = none ↔ memRead oob raw c = false ∨ memRead oob raw (c + 1) = true ∨
      memRead oob raw (c + 2) = false ∧ memRead oob raw (c + 3) = true := by
  unfold logicalBit
  split_ifs with hmark hnext hfourth <;> grind

theorem two_le_length_logicalUnits (b : Bool) : 2 ≤ (logicalUnits b).length := by cases b <;> decide

/-- A logical bit examines no cell after the one that follows its units. -/
theorem logicalBit_eq_some_of_agree {oob : Bool} {raw raw' : RawBitmap} {c adv : Nat} {b : Bool}
    (h : logicalBit oob raw c = some (b, adv)) (hagree : ∀ i ≤ c + adv, memRead oob raw' i = memRead oob raw i) :
    logicalBit oob raw' c = some (b, adv) := by
  rw [logicalBit_eq_some_iff] at h ⊢
  obtain ⟨rfl, hmark, hspace, hnext, hfourth⟩ := h
  have htwo := two_le_length_logicalUnits b
  refine ⟨rfl, ?_, ?_, ?_, ?_⟩
  · rw [hagree c (by omega), hmark]
  · rw [hagree (c + 1) (by omega), hspace]
  · rw [hagree (c + 2) (by omega), hnext]
  · rintro rfl
    rw [hagree (c + 3) (by simp [logicalUnits]), hfourth rfl]

/-- With RAW_OOB_BIT = 1 an index that reads 0 is inside the bitmap. -/
theorem lt_of_memRead_true_eq_false {raw : RawBitmap} {i : Nat} (h : memRead true raw i = false) : i < 96 := by
  by_contra hi
  rw [memRead_outside true raw i (by omega)] at h
  cases h

/-- With RAW_OOB_BIT = 1 a logical bit lies inside the bitmap, as its last unit is a space. -/
theorem logicalBit_true_le {raw : RawBitmap} {c adv : Nat} {b : Bool} (h : logicalBit true raw c = some (b, adv)) :
    c + adv ≤ 96 := by
  obtain ⟨rfl, -, hspace, -, hfourth⟩ := logicalBit_eq_some_iff.mp h
  cases b with
  | false => exact lt_of_memRead_true_eq_false hspace
  | true => exact lt_of_memRead_true_eq_false (hfourth rfl)

/-! ### The units of a frame, and their number (43_frame_decoder.md R178) -/

theorem frameUnits_succ (F : BitVec 32) (n : Nat) :
    frameUnits F (n + 1) = frameUnits F n ++ logicalUnits (F.getLsbD n) := by
  simp [frameUnits, List.range_succ]

theorem length_frameUnits_succ (F : BitVec 32) (n : Nat) :
    (frameUnits F (n + 1)).length = (frameUnits F n).length + (logicalUnits (F.getLsbD n)).length := by
  rw [frameUnits_succ, List.length_append]

theorem frameUnits_congr {F G : BitVec 32} {n : Nat} (h : ∀ k < n, F.getLsbD k = G.getLsbD k) :
    frameUnits F n = frameUnits G n := by
  induction n with
  | zero => rfl
  | succ n ih => rw [frameUnits_succ, frameUnits_succ, ih fun k hk => h k (by omega), h n n.lt_succ_self]

theorem frameUnits_prefix (F : BitVec 32) {m n : Nat} (h : m ≤ n) : frameUnits F m <+: frameUnits F n := by
  induction n, h using Nat.le_induction with
  | base => exact List.prefix_rfl
  | succ n _ ih => exact ih.trans ⟨_, (frameUnits_succ F n).symm⟩

theorem onesIn_succ (v n : Nat) : onesIn v (n + 1) = onesIn v n + (v.testBit n).toNat := by
  cases h : v.testBit n <;> simp [onesIn, List.range_succ, h]

theorem length_frameUnits (F : BitVec 32) (n : Nat) : (frameUnits F n).length = 2 * n + 2 * onesIn F.toNat n := by
  induction n with
  | zero => rfl
  | succ n ih =>
    have hbit : (logicalUnits (F.getLsbD n)).length = 2 + 2 * (F.toNat.testBit n).toNat := by
      rw [BitVec.testBit_toNat]
      cases F.getLsbD n <;> rfl
    rw [length_frameUnits_succ, ih, hbit, onesIn_succ]
    omega

/-! ### The loop of `Decode()` -/

/-- The loop takes logical bits from the front of the bitmap; this takes the last one off its end. -/
theorem parseBits_succ_eq_some_iff {oob : Bool} {raw : RawBitmap} {n k c m : Nat} {G F : BitVec 32} :
    parseBits oob raw (n + 1) k c G = some (F, m) ↔
      ∃ F' c' b adv, parseBits oob raw n k c G = some (F', c') ∧ logicalBit oob raw c' = some (b, adv) ∧
        F = (F' ||| ((BitVec.ofBool b).setWidth 32 <<< (k + n))) ∧ m = c' + adv := by
  induction n generalizing k c G with
  | zero =>
    simp only [parseBits]
    cases h : logicalBit oob raw c <;> grind
  | succ n ih =>
    rw [parseBits]
    cases h : logicalBit oob raw c with
    | none => simp [parseBits, h]
    | some r =>
      rw [ih]
      simp only [parseBits, h, Nat.add_assoc, Nat.add_comm 1 n]

/-- Adding bit `n` to the frame word: that bit is set where it was or `b` is, and the others are as before. -/
theorem getLsbD_or_ofBool_shiftLeft (F : BitVec 32) (b : Bool) {n : Nat} (hn : n < 32) (j : Nat) :
    (F ||| ((BitVec.ofBool b).setWidth 32 <<< n)).getLsbD j = (F.getLsbD j || (decide (j = n) && b)) := by
  cases b with
  | false => simp
  | true =>
    have hbit : (BitVec.ofBool true).setWidth 32 <<< n = BitVec.twoPow 32 n := by simp [BitVec.twoPow]
    rw [hbit, BitVec.getLsbD_or, BitVec.getLsbD_twoPow]
    grind

/-- The first `n` logical bits of the bitmap are those of `F`, each parsed where the units of the bits before it end. -/
def ParsesBits (oob : Bool) (raw : RawBitmap) (F : BitVec 32) (n : Nat) : Prop :=
  ∀ k < n, logicalBit oob raw (frameUnits F k).length = some (F.getLsbD k, (logicalUnits (F.getLsbD k)).length)

theorem ParsesBits.congr {oob : Bool} {raw : RawBitmap} {F G : BitVec 32} {n : Nat} (h : ParsesBits oob raw F n)
    (hbits : ∀ k < n, F.getLsbD k = G.getLsbD k) : ParsesBits oob raw G n := by
  intro k hk
  rw [← frameUnits_congr fun j hj => hbits j (by omega), ← hbits k hk]
  exact h k hk

/-- The loop from the start answers the word of the bits parsed, with nothing above them, and the cursor after them. -/
theorem parsesBits_of_parseBits {oob : Bool} {raw : RawBitmap} {n m : Nat} {F : BitVec 32} (hn : n ≤ 32)
    (h : parseBits oob raw n 0 0 0 = some (F, m)) :
    ParsesBits oob raw F n ∧ m = (frameUnits F n).length ∧ ∀ k, n ≤ k → F.getLsbD k = false := by
  induction n generalizing F m with
  | zero =>
    obtain ⟨rfl, rfl⟩ : 0#32 = F ∧ 0 = m := by simpa [parseBits] using h
    exact ⟨nofun, rfl, by simp⟩
  | succ n ih =>
    obtain ⟨F', c', b, adv, hinit, hlast, rfl, rfl⟩ := parseBits_succ_eq_some_iff.mp h
    obtain ⟨hparse, rfl, hhigh⟩ := ih (by omega) hinit
    obtain ⟨rfl, -⟩ := logicalBit_eq_some_iff.mp hlast
    have hget := getLsbD_or_ofBool_shiftLeft F' b (n := n) (by omega)
    rw [Nat.zero_add]
    generalize F' ||| (BitVec.ofBool b).setWidth 32 <<< n = G at hget
    have hbits : ∀ k < n, F'.getLsbD k = G.getLsbD k := fun k hk => by simp [hget, hk.ne]
    have hbit : G.getLsbD n = b := by simp [hget, hhigh]
    have hunits := frameUnits_congr hbits
    refine ⟨fun k hk => ?_, ?_, fun k hk => ?_⟩
    · obtain hk | rfl := Nat.lt_succ_iff_lt_or_eq.mp hk
      · exact hparse.congr hbits k hk
      · rw [← hunits, hbit, hlast]
    · rw [length_frameUnits_succ, ← hunits, hbit]
    · simp [hget, hhigh k (by omega), show k ≠ n by omega]

/-- The loop from the start finds the bits it can parse. -/
theorem ParsesBits.parseBits_eq {oob : Bool} {raw : RawBitmap} {n : Nat} {F : BitVec 32} (hn : n ≤ 32)
    (h : ParsesBits oob raw F n) :
    parseBits oob raw n 0 0 0 = some ((F.setWidth n).setWidth 32, (frameUnits F n).length) := by
  induction n with
  | zero => simp [parseBits, frameUnits, BitVec.of_length_zero]
  | succ n ih =>
    refine parseBits_succ_eq_some_iff.mpr ⟨_, _, _, _, ih (by omega) fun k hk => h k (by omega), h n n.lt_succ_self,
      BitVec.eq_of_getLsbD_eq fun j hj => ?_, length_frameUnits_succ F n⟩
    rw [Nat.zero_add, getLsbD_or_ofBool_shiftLeft _ _ (by omega)]
    simp only [BitVec.getLsbD_setWidth]
    grind

/-- The parse of a frame: the 32 bits of the frame word, and the cursor after their units (43_frame_decoder.md R170). -/
theorem parseFrame_eq_some_iff {oob : Bool} {raw : RawBitmap} {F : BitVec 32} {n : Nat} :
    parseFrame oob raw = some (F, n) ↔ ParsesBits oob raw F 32 ∧ n = (frameUnits F 32).length := by
  constructor
  · intro h
    obtain ⟨hparse, hn, -⟩ := parsesBits_of_parseBits le_rfl h
    exact ⟨hparse, hn⟩
  · rintro ⟨hparse, rfl⟩
    simpa [parseFrame] using hparse.parseBits_eq le_rfl

/-- With RAW_OOB_BIT = 1 a frame that parses lies inside the bitmap. -/
theorem parseFrame_true_le {raw : RawBitmap} {F : BitVec 32} {n : Nat} (h : parseFrame true raw = some (F, n)) :
    n ≤ 96 := by
  obtain ⟨hparse, rfl⟩ := parseFrame_eq_some_iff.mp h
  rw [length_frameUnits_succ]
  exact logicalBit_true_le (hparse 31 (by decide))

/-! ### The checksum and the decode (43_frame_decoder.md R173, R174, R177) -/

theorem checksumOk_iff_toNat {cmd inv : Command} : checksumOk cmd inv = true ↔ cmd.toNat + inv.toNat = 0xFF := by
  simp only [checksumOk, beq_iff_eq]
  bv_omega

theorem checksumOk_iff_eq_not {cmd inv : Command} : checksumOk cmd inv = true ↔ inv = ~~~cmd := by
  rw [checksumOk_iff_toNat]
  bv_omega

theorem decodeFrame_eq_some_iff {oob : Bool} {raw : RawBitmap} {addr : Address} {cmd : Command} :
    decodeFrame oob raw = some (addr, cmd) ↔
      ∃ F n, parseFrame oob raw = some (F, n) ∧ addr = frameAddress F ∧ cmd = frameCommand F ∧
        checksumOk (frameCommand F) (frameInverted F) = true := by
  unfold decodeFrame
  cases h : parseFrame oob raw <;> grind

theorem frameAddress_getLsbD (F : BitVec 32) {k : Nat} (hk : k < 16) :
    (frameAddress F).getLsbD k = F.getLsbD k := by
  simp [frameAddress, hk]

theorem frameCommand_getLsbD (F : BitVec 32) {k : Nat} (hk : k < 8) :
    (frameCommand F).getLsbD k = F.getLsbD (16 + k) := by
  simp [frameCommand, hk]

theorem frameInverted_getLsbD (F : BitVec 32) {k : Nat} (hk : k < 8) :
    (frameInverted F).getLsbD k = F.getLsbD (24 + k) := by
  simp [frameInverted, hk]

theorem frameAddress_toNat (F : BitVec 32) : (frameAddress F).toNat = F.toNat % 2 ^ 16 := by
  simp [frameAddress, BitVec.extractLsb'_toNat]

theorem frameCommand_toNat (F : BitVec 32) : (frameCommand F).toNat = F.toNat / 2 ^ 16 % 2 ^ 8 := by
  simp [frameCommand, BitVec.extractLsb'_toNat, Nat.shiftRight_eq_div_pow]

theorem frameInverted_toNat (F : BitVec 32) : (frameInverted F).toNat = F.toNat / 2 ^ 24 := by
  simp [frameInverted, BitVec.extractLsb'_toNat, Nat.shiftRight_eq_div_pow]
  omega

end Sys2Proof.Machine

namespace Sys2Proof.Proofs

open Sys2Proof.Machine

/-- Settles O24: the reads `LogicalBit` decides by, for each of its answers. -/
theorem logicalBitReadsThePulseDistance : Obligations.LogicalBitReadsThePulseDistance := by
  unfold Obligations.LogicalBitReadsThePulseDistance
  rintro oob raw c b₀ b₁ b₂ b₃ rfl rfl rfl rfl
  refine ⟨?zero, ?one, ?malformed⟩
  case zero => simp [logicalBit_eq_some_iff, logicalUnits]
  case one => simp [logicalBit_eq_some_iff, logicalUnits]
  case malformed =>
    rw [logicalBit_eq_none_iff]
    cases memRead oob raw c <;> cases memRead oob raw (c + 1) <;> simp

/-- Settles O25: a sequence of cursors that starts at 0 and takes the advance of each bit of `F` is the sequence of the
numbers of units of the first bits of `F`. -/
theorem frameWordCollectsThirtyTwoLogicalBits : Obligations.FrameWordCollectsThirtyTwoLogicalBits := by
  unfold Obligations.FrameWordCollectsThirtyTwoLogicalBits
  intro oob raw F n
  rw [parseFrame_eq_some_iff]
  constructor
  · rintro ⟨hparse, rfl⟩
    exact ⟨fun k => (frameUnits F k).length, rfl, rfl, fun k hk => ⟨_, hparse k hk, length_frameUnits_succ F k⟩⟩
  · rintro ⟨c, hzero, rfl, hstep⟩
    have hcursor : ∀ k ≤ 32, c k = (frameUnits F k).length := by
      intro k hk
      induction k with
      | zero => exact hzero
      | succ k ih =>
        obtain ⟨adv, hbit, hnext⟩ := hstep k hk
        obtain ⟨rfl, -⟩ := logicalBit_eq_some_iff.mp hbit
        rw [hnext, ih (by omega), length_frameUnits_succ]
    refine ⟨fun k hk => ?_, hcursor 32 le_rfl⟩
    obtain ⟨adv, hbit, -⟩ := hstep k hk
    obtain ⟨rfl, -⟩ := logicalBit_eq_some_iff.mp hbit
    rw [← hcursor k hk.le, hbit]

/-- Settles O26: the fields of the frame word and the 9-bit sum, as numbers. -/
theorem decodeChecksTheCommandAgainstItsInverse : Obligations.DecodeChecksTheCommandAgainstItsInverse := by
  unfold Obligations.DecodeChecksTheCommandAgainstItsInverse
  refine ⟨fun oob raw addr cmd => ?decode, fun cmd inv => ⟨checksumOk_iff_eq_not, ?sum⟩⟩
  case decode =>
    simp only [decodeFrame_eq_some_iff, checksumOk_iff_toNat, BitVec.toNat_inj.symm, frameAddress_toNat,
      frameCommand_toNat, frameInverted_toNat]
    grind
  case sum =>
    rw [checksumOk_iff_eq_not]
    bv_omega

/-- Settles O27: the final cursor is the number of units of the frame word's bits, the last of which is a space. -/
theorem parsedFrameUsesUnitsByItsOnes : Obligations.ParsedFrameUsesUnitsByItsOnes := by
  unfold Obligations.ParsedFrameUsesUnitsByItsOnes
  intro oob raw F n h
  obtain ⟨-, rfl⟩ := parseFrame_eq_some_iff.mp h
  refine ⟨length_frameUnits F 32, ?_⟩
  rintro rfl
  exact parseFrame_true_le h

/-- Settles O29: each logical bit ends at or before the final cursor, and examines nothing past its end. -/
theorem cellsAfterTheFrameAreNotExamined : Obligations.CellsAfterTheFrameAreNotExamined := by
  unfold Obligations.CellsAfterTheFrameAreNotExamined
  intro oob raw raw' F n h hagree
  obtain ⟨hparse, rfl⟩ := parseFrame_eq_some_iff.mp h
  have hsame : parseFrame oob raw' = some (F, (frameUnits F 32).length) := by
    refine parseFrame_eq_some_iff.mpr ⟨fun k hk => ?_, rfl⟩
    refine logicalBit_eq_some_of_agree (hparse k hk) fun i hi => hagree i (hi.trans ?_)
    rw [← length_frameUnits_succ]
    exact (frameUnits_prefix F hk).length_le
  exact ⟨hsame, by rw [decodeFrame, decodeFrame, hsame, h]⟩

end Sys2Proof.Proofs
end

section
/-! PROOFS. The round trip of aligned frames (43_frame_decoder.md R178): the image of a frame, what a parse of it can
find, and the capacity of the bitmap. -/

namespace Sys2Proof.Machine

/-! ### The image of a frame (30_encoding.md R94) -/

/-- The image of the bits of `F`, the closing mark and spaces, as `NECDATA` writes it (`rawImage_necUnits`). -/
def frameImage (F : BitVec 32) : RawBitmap := rawImage ((frameUnits F 32 ++ [true] ++ List.replicate 96 false).take 96)

/-- The units of a frame stand in the image in order, as far as the bitmap goes. -/
theorem memRead_frameImage (oob : Bool) (F : BitVec 32) {i : Nat} (hi : i < 96) :
    memRead oob (frameImage F) i = (frameUnits F 32 ++ [true] ++ List.replicate 96 false).getD i false := by
  rw [memRead_inside oob _ i hi, frameImage, rawImage, BitVec.getLsbD_setWidth, BitVec.getLsbD_ofBoolListLE,
    List.getD_eq_getElem?_getD, List.getElem?_take_of_lt hi, List.getD_eq_getElem?_getD, decide_eq_true hi, Bool.true_and]

/-- The units of logical bit `k` are followed by a mark: that of the next bit, or the closing one. -/
theorem frameUnits_logicalUnits_true_prefix (F : BitVec 32) {k : Nat} (hk : k < 32) :
    frameUnits F k ++ logicalUnits (F.getLsbD k) ++ [true] <+: frameUnits F 32 ++ [true] := by
  rw [← frameUnits_succ]
  obtain h | rfl : k + 1 < 32 ∨ k = 31 := by omega
  · have hmark : frameUnits F (k + 1) ++ [true] <+: frameUnits F (k + 2) := by
      rw [frameUnits_succ F (k + 1)]
      cases F.getLsbD (k + 1) <;> exact (List.prefix_append_right_inj _).mpr ⟨_, rfl⟩
    exact hmark.trans ((frameUnits_prefix F h).trans (List.prefix_append _ _))
  · exact List.prefix_rfl

/-- The cells of the image from the cursor of logical bit `k`: its units and the mark after them. -/
theorem memRead_frameImage_cursor (oob : Bool) (F : BitVec 32) {k j : Nat} (hk : k < 32)
    (hj : j ≤ (logicalUnits (F.getLsbD k)).length) (hi : (frameUnits F k).length + j < 96) :
    memRead oob (frameImage F) ((frameUnits F k).length + j) = (logicalUnits (F.getLsbD k) ++ [true]).getD j false := by
  obtain ⟨rest, hrest⟩ := frameUnits_logicalUnits_true_prefix F hk
  rw [memRead_frameImage oob F hi, ← hrest]
  simp only [List.append_assoc, List.getD_append_right _ _ _ _ (Nat.le_add_right _ _), Nat.add_sub_cancel_left]
  rw [← List.append_assoc, List.getD_append _ _ _ _ (by simp; omega)]

/-- The third unit from a cursor tells a logical 0, where it is a mark, from a logical 1. -/
theorem memRead_frameImage_third (oob : Bool) (F : BitVec 32) {k : Nat} (hk : k < 32)
    (hi : (frameUnits F k).length + 2 < 96) :
    memRead oob (frameImage F) ((frameUnits F k).length + 2) = !F.getLsbD k := by
  rw [memRead_frameImage_cursor oob F hk (two_le_length_logicalUnits _) hi]
  cases F.getLsbD k <;> rfl

/-- A logical bit whose units lie inside the bitmap parses, with RAW_OOB_BIT = 1, as itself: where the mark after it is
not in the bitmap, the read past the end stands in for it. -/
theorem logicalBit_frameImage {F : BitVec 32} {k : Nat} (hk : k < 32) (hfit : (frameUnits F (k + 1)).length ≤ 96) :
    logicalBit true (frameImage F) (frameUnits F k).length =
      some (F.getLsbD k, (logicalUnits (F.getLsbD k)).length) := by
  have hread := @memRead_frameImage_cursor true F k
  rw [length_frameUnits_succ] at hfit
  generalize (frameUnits F k).length = c at hread hfit ⊢
  generalize F.getLsbD k = b at hread hfit ⊢
  rw [logicalBit_eq_some_iff]
  cases b with
  | false =>
    have hmark : memRead true (frameImage F) (c + 2) = true := by
      by_cases h : c + 2 < 96
      · exact hread hk le_rfl h
      · exact memRead_outside _ _ _ (by omega)
    simp only [logicalUnits] at hread hfit
    exact ⟨rfl, hread (j := 0) hk (by simp) (by grind), hread (j := 1) hk (by simp) (by grind), hmark, nofun⟩
  | true =>
    simp only [logicalUnits] at hread hfit
    exact ⟨rfl, hread (j := 0) hk (by simp) (by grind), hread (j := 1) hk (by simp) (by grind),
      hread (j := 2) hk (by simp) (by grind), fun _ => hread (j := 3) hk (by simp) (by grind)⟩

/-- A frame that fits the bitmap parses as itself. -/
theorem parseFrame_frameImage {F : BitVec 32} (hfit : (frameUnits F 32).length ≤ 96) :
    parseFrame true (frameImage F) = some (F, (frameUnits F 32).length) :=
  parseFrame_eq_some_iff.mpr
    ⟨fun _ hk => logicalBit_frameImage hk ((frameUnits_prefix F hk).length_le.trans hfit), rfl⟩

/-- Whatever a parse of the image finds, the first 31 bits are those of the frame: the third units of all of them lie
inside the bitmap, as a further bit follows. -/
theorem getLsbD_of_parseFrame_frameImage {F G : BitVec 32} {n : Nat}
    (h : parseFrame true (frameImage F) = some (G, n)) {k : Nat} (hk : k < 31) : G.getLsbD k = F.getLsbD k := by
  obtain ⟨hparse, -⟩ := parseFrame_eq_some_iff.mp h
  induction k using Nat.strong_induction_on with
  | _ k ih =>
    have hcursor : frameUnits G k = frameUnits F k := frameUnits_congr fun j hj => ih j hj (by omega)
    have hbit := hparse k (by omega)
    have hnext := logicalBit_true_le (hparse (k + 1) (by omega))
    rw [length_frameUnits_succ, hcursor] at hnext
    rw [hcursor] at hbit
    obtain ⟨-, -, -, hthird, -⟩ := logicalBit_eq_some_iff.mp hbit
    have hunits := two_le_length_logicalUnits (G.getLsbD k)
    have hunits' := two_le_length_logicalUnits (G.getLsbD (k + 1))
    rw [memRead_frameImage_third true F (by omega) (by omega)] at hthird
    simpa using hthird.symm

/-! ### The number of units of an aligned frame -/

theorem onesIn_congr {v w n : Nat} (h : ∀ k < n, v.testBit k = w.testBit k) : onesIn v n = onesIn w n := by
  induction n with
  | zero => rfl
  | succ n ih => rw [onesIn_succ, onesIn_succ, ih fun k hk => h k (by omega), h n n.lt_succ_self]

theorem onesIn_add (v m n : Nat) : onesIn v (m + n) = onesIn v m + onesIn (v >>> m) n := by
  induction n with
  | zero => rfl
  | succ n ih => rw [← Nat.add_assoc, onesIn_succ, onesIn_succ, ih, Nat.testBit_shiftRight, Nat.add_assoc]

/-- A word and its complement have one 1 between them in each bit. -/
theorem onesIn_add_onesIn_of_not {v w n : Nat} (h : ∀ k < n, w.testBit k = !v.testBit k) :
    onesIn v n + onesIn w n = n := by
  induction n with
  | zero => rfl
  | succ n ih =>
    have hn := ih fun k hk => h k (by omega)
    rw [onesIn_succ, onesIn_succ, h n n.lt_succ_self]
    cases v.testBit n <;> simp <;> omega

/-! ### The word of an aligned frame -/

/-- The frame word of an address, a command and its complement (30_encoding.md R94). -/
def alignedWord (a : Address) (c : Command) : BitVec 32 := ~~~c ++ c ++ a

theorem rawImage_necUnits (a : Address) (c : Command) :
    rawImage (necUnits a c (~~~c)) = frameImage (alignedWord a c) := rfl

theorem frameAddress_alignedWord (a : Address) (c : Command) : frameAddress (alignedWord a c) = a :=
  BitVec.extractLsb'_append_eq_right

theorem frameCommand_alignedWord (a : Address) (c : Command) : frameCommand (alignedWord a c) = c :=
  BitVec.eq_of_getLsbD_eq fun k hk => by
    rw [frameCommand_getLsbD _ hk, alignedWord, BitVec.getLsbD_append, BitVec.getLsbD_append]
    simp [hk]

theorem frameInverted_alignedWord (a : Address) (c : Command) : frameInverted (alignedWord a c) = ~~~c :=
  BitVec.eq_of_getLsbD_eq fun k hk => by
    rw [frameInverted_getLsbD _ hk, alignedWord, BitVec.getLsbD_append, BitVec.getLsbD_append]
    simp [show ¬24 + k < 16 by omega, show ¬24 + k - 16 < 8 by omega, show 24 + k - 16 - 8 = k by omega]

/-- A frame word has the ones of its three parts. -/
theorem onesIn_frameWord (F : BitVec 32) :
    onesIn F.toNat 32 =
      onesIn (frameAddress F).toNat 16 + onesIn (frameCommand F).toNat 8 + onesIn (frameInverted F).toNat 8 := by
  have haddr : onesIn F.toNat 16 = onesIn (frameAddress F).toNat 16 := onesIn_congr fun k hk => by
    simp only [BitVec.testBit_toNat, frameAddress_getLsbD F hk]
  have hcmd : onesIn (F.toNat >>> 16) 8 = onesIn (frameCommand F).toNat 8 := onesIn_congr fun k hk => by
    simp only [Nat.testBit_shiftRight, BitVec.testBit_toNat, frameCommand_getLsbD F hk]
  have hinv : onesIn (F.toNat >>> 24) 8 = onesIn (frameInverted F).toNat 8 := onesIn_congr fun k hk => by
    simp only [Nat.testBit_shiftRight, BitVec.testBit_toNat, frameInverted_getLsbD F hk]
  rw [onesIn_add F.toNat 24 8, onesIn_add F.toNat 16 8, haddr, hcmd, hinv]

/-- The command and its complement have 8 ones between them. -/
theorem onesIn_alignedWord (a : Address) (c : Command) :
    onesIn (alignedWord a c).toNat 32 = onesIn a.toNat 16 + 8 := by
  have hpair : onesIn c.toNat 8 + onesIn (~~~c).toNat 8 = 8 := onesIn_add_onesIn_of_not fun k hk => by
    simp only [BitVec.testBit_toNat, BitVec.getLsbD_not, hk, decide_true, Bool.true_and]
  rw [onesIn_frameWord, frameAddress_alignedWord, frameCommand_alignedWord, frameInverted_alignedWord, Nat.add_assoc,
    hpair]

/-- In a frame word that passes the checksum the last bit is the complement of the command's last bit. -/
theorem getLsbD_31_of_frameInverted {F : BitVec 32} (h : frameInverted F = ~~~frameCommand F) :
    F.getLsbD 31 = !F.getLsbD 23 := by
  have hlast : (frameInverted F).getLsbD 7 = (~~~frameCommand F).getLsbD 7 := by rw [h]
  rwa [BitVec.getLsbD_not, frameInverted_getLsbD F (by decide), frameCommand_getLsbD F (by decide)] at hlast

/-- A frame word that passes the checksum is known from its first 31 bits. -/
theorem eq_of_frameInverted {F G : BitVec 32} (hbits : ∀ k < 31, G.getLsbD k = F.getLsbD k)
    (hF : frameInverted F = ~~~frameCommand F) (hG : frameInverted G = ~~~frameCommand G) : G = F := by
  refine BitVec.eq_of_getLsbD_eq fun k hk => ?_
  obtain hk | rfl : k < 31 ∨ k = 31 := by omega
  · exact hbits k hk
  · rw [getLsbD_31_of_frameInverted hF, getLsbD_31_of_frameInverted hG, hbits 23 (by decide)]

end Sys2Proof.Machine

namespace Sys2Proof.Proofs

open Sys2Proof.Machine

/-- Settles O28: a frame that fits the bitmap parses as itself; of a longer one a parse finds the first 31 bits, so that
the checksum would leave only the frame itself, which does not end inside the bitmap. -/
theorem alignedFrameDecodesExactlyWhenItFits : Obligations.AlignedFrameDecodesExactlyWhenItFits := by
  unfold Obligations.AlignedFrameDecodesExactlyWhenItFits
  intro a c
  have hlength := length_frameUnits (alignedWord a c) 32
  rw [onesIn_alignedWord] at hlength
  rw [rawImage_necUnits]
  split_ifs with hfit
  case pos =>
    refine decodeFrame_eq_some_iff.mpr ⟨_, _, parseFrame_frameImage (by omega), ?_, ?_, ?_⟩
    · rw [frameAddress_alignedWord]
    · rw [frameCommand_alignedWord]
    · rw [checksumOk_iff_eq_not, frameCommand_alignedWord, frameInverted_alignedWord]
  case neg =>
    refine Option.eq_none_iff_forall_ne_some.mpr fun ⟨addr, cmd⟩ h => hfit ?_
    obtain ⟨G, n, hparse, -, -, hsum⟩ := decodeFrame_eq_some_iff.mp h
    obtain rfl : G = alignedWord a c := eq_of_frameInverted (fun k hk => getLsbD_of_parseFrame_frameImage hparse hk)
      (by rw [frameInverted_alignedWord, frameCommand_alignedWord]) (checksumOk_iff_eq_not.mp hsum)
    have hn := parseFrame_true_le hparse
    obtain ⟨-, rfl⟩ := parseFrame_eq_some_iff.mp hparse
    omega

end Sys2Proof.Proofs
end

section
/-! PROOFS. The repeat-frame detector (44_repeat.md R190–R206): one equation a cell of its tables, what an instruction can do
in the repeat window, and a run of housekeeping ticks to the timeout. -/

namespace Sys2Proof.Machine

/-! ### The table of edges (44_repeat.md R190–R199) -/

theorem repEdge_waitRise_rising {s : State} (el : Ticks) (h : s.rep = .waitRise) :
    repEdge true el s = repStartPulse s := by simp [repEdge, h]

theorem repEdge_waitRise_falling {s : State} (el : Ticks) (h : s.rep = .waitRise) : repEdge false el s = s := by
  simp [repEdge, h]

theorem repEdge_waitFall_rising {s : State} (el : Ticks) (h : s.rep = .waitFall) : repEdge true el s = s := by
  simp [repEdge, h]

theorem repEdge_waitFall_falling {s : State} (p : Ticks) (h : s.rep = .waitFall) :
    repEdge false p s = repEndPulse p s := by simp [repEdge, h]

theorem repEdge_waitRiseEnd_rising {s : State} (g : Ticks) (h : s.rep = .waitRiseEnd) :
    repEdge true g s = repEndGap g s := by simp [repEdge, h]

theorem repEdge_waitRiseEnd_falling {s : State} (el : Ticks) (h : s.rep = .waitRiseEnd) : repEdge false el s = s := by
  simp [repEdge, h]

theorem repEdge_fault {s : State} (lvl : Bool) (el : Ticks) (h : s.rep = .fault) : repEdge lvl el s = s := by
  simp [repEdge, h]

theorem repEndPulse_of_lt {p : Ticks} {s : State} (h : s.P.repPulseMin.toNat < p.toNat) :
    repEndPulse p s = repStartGap s := if_pos h

theorem repEndPulse_of_le {p : Ticks} {s : State} (h : p.toNat ≤ s.P.repPulseMin.toNat) :
    repEndPulse p s = repFail s := if_neg (Nat.not_lt.2 h)

theorem repEndGap_of_lt {g : Ticks} {s : State} (h : s.P.repGapMin.toNat < g.toNat) :
    repEndGap g s = repConfirm s := if_pos h

theorem repEndGap_of_le {g : Ticks} {s : State} (h : g.toNat ≤ s.P.repGapMin.toNat) :
    repEndGap g s = repFail s := if_neg (Nat.not_lt.2 h)

/-- A confirmed repeat as one update (44_repeat.md R196; 40_dispatch.md R118). -/
theorem repConfirm_eq (s : State) :
    repConfirm s =
      { s with
        rep := .waitRise, elapsedMs := 0, fault := if s.cbValid then s.fault else s.fault ||| 0b1000#4,
        acts := s.acts ++ (if s.cbValid then [.emit s.cbCtx s.lastAddress s.lastCommand true] else []) ++
          [.tmrContinuous s.P.hkTicks] } := by
  unfold repConfirm
  rw [deliver_eq]
  rfl

/-! ### The timer expiry (44_repeat.md R200, R201) -/

theorem repTick_of_measuring {s : State} (h : s.rep = .waitFall ∨ s.rep = .waitRiseEnd) : repTick s = repFail s := by
  obtain h | h := h <;> simp [repTick, h]

theorem repTick_of_housekeeping {s : State} (h : s.rep = .waitRise ∨ s.rep = .fault) :
    repTick s = housekeepingTick s := by
  obtain h | h := h <;> simp [repTick, h]

theorem exec_tick_housekeeping {s : State} (lvl : Bool) (hi : s.initialized = true) (ht : s.top = .waitRepeat)
    (hr : s.rep = .waitRise ∨ s.rep = .fault) : exec (.tick lvl) s = .next (housekeepingTick s) := by
  rw [exec_tick_waitRepeat lvl hi ht, repTick_of_housekeeping hr]

theorem housekeepingTick_of_lt {s : State} (h : s.P.repeatTimeoutMs.toNat < s.elapsedMs.toNat + 10) :
    housekeepingTick s = s.resetDecoder := if_pos h

theorem housekeepingTick_of_le {s : State} (h : s.elapsedMs.toNat + 10 ≤ s.P.repeatTimeoutMs.toNat) :
    housekeepingTick s = { s with elapsedMs := s.elapsedMs + 10#32 } := if_neg (Nat.not_lt.2 h)

/-- A sum that does not exceed the timeout fits the field. -/
theorem elapsedMs_add_ten_toNat {s : State} (h : s.elapsedMs.toNat + 10 ≤ s.P.repeatTimeoutMs.toNat) :
    (s.elapsedMs + 10#32).toNat = s.elapsedMs.toNat + 10 := by bv_omega

/-! ### What an instruction can do in the repeat window (44_repeat.md R206) -/

/-- The two states agree in the top-level state and the decoded command. -/
structure KeepsWindow (s t : State) : Prop where
  top : t.top = s.top
  lastAddress : t.lastAddress = s.lastAddress
  lastCommand : t.lastCommand = s.lastCommand
  cmdReceived : t.cmdReceived = s.cmdReceived

theorem KeepsFrame.keepsWindow {s t : State} (k : KeepsFrame s t) (h : t.top = s.top) : KeepsWindow s t :=
  ⟨h, k.lastAddress, k.lastCommand, k.cmdReceived⟩

theorem repEdge_top (lvl : Bool) (el : Ticks) (s : State) : (repEdge lvl el s).top = s.top := by
  obtain h | ⟨-, -, h⟩ | ⟨-, -, h⟩ | ⟨-, -, h⟩ := repEdge_cases lvl el s <;> rw [h]
  · rfl
  · obtain ⟨-, h⟩ | ⟨-, h⟩ := repEndPulse_cases el s <;> rw [h] <;> rfl
  · obtain ⟨-, h⟩ | ⟨-, h⟩ := repEndGap_cases el s <;> rw [h]
    · rw [repConfirm_eq]
    · rfl

theorem repEdge_keepsWindow (lvl : Bool) (el : Ticks) (s : State) : KeepsWindow s (repEdge lvl el s) := by
  obtain ⟨k, -, -⟩ := repEdge_frame lvl el s
  exact k.keepsWindow (repEdge_top lvl el s)

theorem repTick_keepsWindow (s : State) : repTick s = s.resetDecoder ∨ KeepsWindow s (repTick s) := by
  obtain ⟨-, h⟩ | ⟨-, h⟩ := repTick_cases s <;> rw [h]
  · exact .inr ⟨rfl, rfl, rfl, rfl⟩
  · obtain ⟨-, h⟩ | ⟨-, h⟩ := housekeepingTick_cases s <;> rw [h]
    · exact .inl rfl
    · exact .inr ⟨rfl, rfl, rfl, rfl⟩

/-- In the repeat window an instruction keeps the window, or leaves a decoder that was just reset; INIT then sets
`initialized`. -/
theorem exec_waitRepeat_outcome {i : Instr} {s t : State} (ht : s.top = .waitRepeat) (h : exec i s = .next t) :
    KeepsWindow s t ∨ ∃ (r : State) (b : Bool), t = { r.resetDecoder with initialized := b } := by
  cases i with
  | nop => cases h; exact .inl ⟨rfl, rfl, rfl, rfl⟩
  | edge lvl el =>
    cases hi : s.initialized with
    | false => rw [exec_edge_beforeInit lvl el hi] at h; cases h; exact .inl ⟨rfl, rfl, rfl, rfl⟩
    | true => rw [exec_edge_waitRepeat lvl el hi ht] at h; cases h; exact .inl (repEdge_keepsWindow lvl el s)
  | tick lvl =>
    cases hi : s.initialized with
    | false => rw [exec_tick_beforeInit lvl hi] at h; cases h; exact .inl ⟨rfl, rfl, rfl, rfl⟩
    | true =>
      rw [exec_tick_waitRepeat lvl hi ht] at h
      cases h
      exact (repTick_keepsWindow s).symm.imp_right fun hr => ⟨s, s.initialized, hr⟩
  | init => cases h; exact .inr ⟨_, true, rfl⟩
  | setcb en ctx => cases h; exact .inl ⟨rfl, rfl, rfl, rfl⟩

/-! ### A run of housekeeping ticks (44_repeat.md R202) -/

theorem ticksToTimeout_eq_one {P : Params} {e : Nat} (h : P.repeatTimeoutMs.toNat < e + 10) :
    ticksToTimeout P e = 1 := by
  unfold ticksToTimeout
  omega

theorem ticksToTimeout_eq_succ {P : Params} {e : Nat} (h : e + 10 ≤ P.repeatTimeoutMs.toNat) :
    ticksToTimeout P e = ticksToTimeout P (e + 10) + 1 := by
  unfold ticksToTimeout
  omega

/-- The repeat window is open, no measurement is under way, and only ticks are to come. -/
structure AwaitsTimeout (s : State) : Prop where
  initialized : s.initialized = true
  top : s.top = .waitRepeat
  rep : s.rep = .waitRise ∨ s.rep = .fault
  onlyTicks : OnlyTicks s

theorem AwaitsTimeout.step_eq {s : State} {w : Word} {rest : List Word} (h : AwaitsTimeout s)
    (hp : s.pending = w :: rest) : step s = .next (housekeepingTick { s with pending := rest, acts := [] }) := by
  obtain ⟨lvl, rfl⟩ := h.onlyTicks w (by simp [hp])
  rw [step_of_pending hp, stepWord_of_decode (decode_encode _)]
  exact exec_tick_housekeeping lvl h.initialized h.top h.rep

/-- A tick past the timeout resets the decoder. -/
theorem AwaitsTimeout.step_closes {s : State} {w : Word} {rest : List Word} (h : AwaitsTimeout s)
    (hp : s.pending = w :: rest) (hlt : s.P.repeatTimeoutMs.toNat < s.elapsedMs.toNat + 10) :
    step s = .next (State.resetDecoder { s with pending := rest, acts := [] }) :=
  (h.step_eq hp).trans (congrArg _ (housekeepingTick_of_lt hlt))

/-- An earlier tick counts 10 ms more and keeps the window open. -/
theorem AwaitsTimeout.step_counts {s : State} {w : Word} {rest : List Word} (h : AwaitsTimeout s)
    (hp : s.pending = w :: rest) (hle : s.elapsedMs.toNat + 10 ≤ s.P.repeatTimeoutMs.toNat) :
    step s = .next { s with pending := rest, acts := [], elapsedMs := s.elapsedMs + 10#32 } :=
  (h.step_eq hp).trans (congrArg _ (housekeepingTick_of_le hle))

theorem AwaitsTimeout.afterTick {s : State} {w : Word} {rest : List Word} (h : AwaitsTimeout s)
    (hp : s.pending = w :: rest) (acts : List Action) (e : Millis) :
    AwaitsTimeout { s with pending := rest, acts := acts, elapsedMs := e } :=
  ⟨h.initialized, h.top, h.rep, fun v hv => h.onlyTicks v (hp ▸ List.mem_cons_of_mem w hv)⟩

/-- The first `n - 1` steps issue no action, keep the window open and count 10 ms each; the `n`th resets the decoder. -/
def WindowClosesAfter (n : Nat) (s : State) : Prop :=
  (∀ k < n, ∃ t, runTrace k s [] = some (t, []) ∧ t.top = .waitRepeat ∧ t.rep = s.rep ∧
    t.elapsedMs.toNat = s.elapsedMs.toNat + 10 * k) ∧
  ∃ t, runTrace n s [] = some (t, [.tmrStop]) ∧ t.top = .synchronizing ∧ t.sync = .waitRise

theorem WindowClosesAfter.one {s u : State} (ht : s.top = .waitRepeat) (hu : u.acts = [])
    (hstep : step s = .next u.resetDecoder) : WindowClosesAfter 1 s := by
  refine ⟨fun k hk => ?_, u.resetDecoder, ?_, rfl, rfl⟩
  · obtain rfl := Nat.lt_one_iff.1 hk
    exact ⟨s, rfl, ht, rfl, rfl⟩
  · rw [runTrace_succ hstep, State.resetDecoder_acts, hu]
    rfl

theorem WindowClosesAfter.succ {n : Nat} {s t : State} (ht : s.top = .waitRepeat) (hstep : step s = .next t)
    (hacts : t.acts = []) (hrep : t.rep = s.rep) (helapsed : t.elapsedMs.toNat = s.elapsedMs.toNat + 10)
    (hrun : WindowClosesAfter n t) : WindowClosesAfter (n + 1) s := by
  have htrace (k : Nat) : runTrace (k + 1) s [] = runTrace k t [] := by rw [runTrace_succ hstep, hacts, List.append_nil]
  obtain ⟨hopen, hclose⟩ := hrun
  refine ⟨fun k hk => ?_, by rwa [htrace]⟩
  cases k with
  | zero => exact ⟨s, rfl, ht, rfl, rfl⟩
  | succ k =>
    obtain ⟨u, hu, htop, hr, he⟩ := hopen k (Nat.lt_of_succ_lt_succ hk)
    exact ⟨u, (htrace k).trans hu, htop, hr.trans hrep, by omega⟩

theorem AwaitsTimeout.windowClosesAfter {n : Nat} {s : State} (h : AwaitsTimeout s)
    (hn : ticksToTimeout s.P s.elapsedMs.toNat = n) (hlength : n ≤ s.pending.length) : WindowClosesAfter n s := by
  induction n generalizing s with
  | zero => exact absurd hn (Nat.succ_ne_zero _)
  | succ n ih =>
    obtain ⟨w, rest, hp⟩ := List.exists_cons_of_length_pos (Nat.zero_lt_of_lt hlength)
    obtain hlt | hle := Nat.lt_or_ge s.P.repeatTimeoutMs.toNat (s.elapsedMs.toNat + 10)
    · obtain rfl : n = 0 := by simpa using hn.symm.trans (ticksToTimeout_eq_one hlt)
      exact .one h.top rfl (h.step_closes hp hlt)
    · have helapsed := elapsedMs_add_ten_toNat hle
      have hrest : ticksToTimeout s.P (s.elapsedMs + 10#32).toNat = n := by
        rw [ticksToTimeout_eq_succ hle] at hn
        rw [helapsed]
        exact Nat.succ.inj hn
      have hleft : n ≤ rest.length := by simpa [hp] using hlength
      exact .succ h.top (h.step_counts hp hle) rfl rfl helapsed (ih (h.afterTick hp [] _) hrest hleft)

end Sys2Proof.Machine

namespace Sys2Proof.Proofs

open Sys2Proof.Machine

/-- Settles O36: an edge keeps the window, a tick keeps it or resets, INIT resets, and no other word touches it. -/
theorem repeatWindowIsLeftOnlyByReset : Obligations.RepeatWindowIsLeftOnlyByReset := by
  unfold Obligations.RepeatWindowIsLeftOnlyByReset
  intro s t ht h
  obtain ⟨-, rfl⟩ | ⟨w, rest, -, ⟨i, -, hi⟩ | ⟨r, -, rfl⟩⟩ := step_cases h
  · exact .inl ⟨ht, rfl, rfl, rfl⟩
  · obtain k | ⟨r, b, rfl⟩ := exec_waitRepeat_outcome (s := { s with pending := rest, acts := [] }) ht hi
    · exact .inl ⟨k.top.trans ht, k.lastAddress, k.lastCommand, k.cmdReceived⟩
    · exact .inr ⟨rfl, rfl, rfl, rfl, rfl, rfl, rfl, rfl, rfl, rfl, rfl, rfl, rfl, rfl, by simp⟩
  · exact .inl ⟨ht, rfl, rfl, rfl⟩

/-- Settles O37: by induction over the ticks to the timeout, of which every tick but the last takes one away. -/
theorem windowClosesOnTheTickPastTheTimeout : Obligations.WindowClosesOnTheTickPastTheTimeout := by
  unfold Obligations.WindowClosesOnTheTickPastTheTimeout
  exact fun s hi ht hr honly hlength => AwaitsTimeout.windowClosesAfter ⟨hi, ht, hr, honly⟩ rfl hlength

/-- Settles O30: the cell of R190 for a rising edge in WaitRise. -/
theorem risingEdgeStartsTheRepeatPulse : Obligations.RisingEdgeStartsTheRepeatPulse := by
  unfold Obligations.RisingEdgeStartsTheRepeatPulse
  intro s el hi ht hr
  rw [exec_edge_waitRepeat true el hi ht, repEdge_waitRise_rising el hr]
  rfl

/-- Settles O31: the cell of R190 for a falling edge in WaitFall, on both sides of the pulse minimum. -/
theorem repeatPulseGoesOnOrFails : Obligations.RepeatPulseGoesOnOrFails := by
  unfold Obligations.RepeatPulseGoesOnOrFails
  intro s p hi ht hr
  rw [exec_edge_waitRepeat false p hi ht, repEdge_waitFall_falling p hr]
  refine ⟨fun hlt => ?above, fun hle => ?below⟩
  case above =>
    rw [repEndPulse_of_lt hlt]
    rfl
  case below =>
    rw [repEndPulse_of_le hle]
    rfl

/-- Settles O32: the cell of R190 for a rising edge in WaitRiseEnd, on both sides of the gap minimum. -/
theorem repeatGapConfirmsOrFails : Obligations.RepeatGapConfirmsOrFails := by
  unfold Obligations.RepeatGapConfirmsOrFails
  intro s g hi ht hr
  rw [exec_edge_waitRepeat true g hi ht, repEdge_waitRiseEnd_rising g hr]
  refine ⟨fun hlt => by rw [repEndGap_of_lt hlt, repConfirm_eq], fun hle => ?_⟩
  rw [repEndGap_of_le hle]
  rfl

/-- Settles O33: the cells of R190 that keep the state. -/
theorem otherEdgesInTheRepeatWindowAreIgnored : Obligations.OtherEdgesInTheRepeatWindowAreIgnored := by
  unfold Obligations.OtherEdgesInTheRepeatWindowAreIgnored
  refine fun s el hi ht => ⟨fun hr => ?waitRise, fun hr => ?waitFall, fun hr => ?waitRiseEnd, fun hr lvl => ?fault⟩
  case waitRise => rw [exec_edge_waitRepeat false el hi ht, repEdge_waitRise_falling el hr]
  case waitFall => rw [exec_edge_waitRepeat true el hi ht, repEdge_waitFall_rising el hr]
  case waitRiseEnd => rw [exec_edge_waitRepeat false el hi ht, repEdge_waitRiseEnd_falling el hr]
  case fault => rw [exec_edge_waitRepeat lvl el hi ht, repEdge_fault lvl el hr]

/-- Settles O34: the housekeeping tick on both sides of the timeout; a sum within it fits the field. -/
theorem housekeepingTickCountsOrResets : Obligations.HousekeepingTickCountsOrResets := by
  unfold Obligations.HousekeepingTickCountsOrResets
  intro s lvl hi ht hr
  rw [exec_tick_housekeeping lvl hi ht hr]
  exact ⟨fun hle => ⟨_, elapsedMs_add_ten_toNat hle, by rw [housekeepingTick_of_le hle]⟩,
    fun hlt => by rw [housekeepingTick_of_lt hlt]⟩

/-- Settles O35: a tick in WaitFall or WaitRiseEnd is the expiry of R201. -/
theorem expiryFailsTheRepeatMeasurement : Obligations.ExpiryFailsTheRepeatMeasurement := by
  unfold Obligations.ExpiryFailsTheRepeatMeasurement
  intro s lvl hi ht hr
  rw [exec_tick_waitRepeat lvl hi ht, repTick_of_measuring hr]
  rfl

end Sys2Proof.Proofs
end

section
/-! PROOFS. The host operations and the illegal words (45_host_ops.md R220–R223): the effect of each as one update of the
state, and the words that have it. -/

namespace Sys2Proof

/-! ### The words of INIT and SETCB (45_host_ops.md R220, R222) -/

theorem decode_eq_init_iff {w : Word} : decode w = .ok .init ↔ w = 0x0000000000000003#64 := decode_eq_ok_iff

/-- `w[39:8]` as a number (30_encoding.md R80). -/
theorem Word.data_eq_ofNat (w : Word) : w.data = BitVec.ofNat 32 (w.toNat / 2 ^ 8) := by
  rw [Word.data, BitVec.extractLsb', Nat.shiftRight_eq_div_pow]

/-- The mask of SETCB leaves exactly its two operands open. -/
theorem decode_setcb_of_mask {w : Word} (h : w &&& 0xFFFFFF00000000F7#64 = 0x4#64) :
    decode w = .ok (.setcb w.lvl w.data) := by
  obtain ⟨en, ctx, rfl⟩ := and_maskBothOperands_eq_iff (o := 4).1 h
  rw [Word.lvl_ofFields, Word.data_ofFields]
  exact decode_encode (.setcb en ctx)

end Sys2Proof

namespace Sys2Proof.Machine

/-! ### The effect of a host operation and of an illegal word -/

/-- A word that is not legal does not decode (30_encoding.md R91), and only raises `ILLEGAL_OP`. -/
theorem stepWord_of_not_legal {w : Word} (h : ¬Legal w) (s : State) : stepWord w s = .next s.illegalWord := by
  obtain ⟨e, he⟩ := exists_decode_error_iff.2 h
  simp [stepWord, he]

/-- `MULTI_INIT` is bit 2, set by an INIT that finds `initialized` set (45_host_ops.md R221). -/
theorem noteRepeatedInit_eq (s : State) :
    noteRepeatedInit s = { s with fault := if s.initialized then s.fault ||| 0b0100#4 else s.fault } := by
  unfold noteRepeatedInit
  split <;> rfl

theorem exec_init (s : State) :
    exec .init s =
      .next { (((noteRepeatedInit s).act .pinConfig).act .tmrConfig).resetDecoder with initialized := true } := rfl

theorem exec_setcb (en : Bool) (ctx : Context) (s : State) :
    exec (.setcb en ctx) s = .next { s with cbValid := en, cbCtx := ctx } := rfl

end Sys2Proof.Machine

namespace Sys2Proof.Proofs

open Sys2Proof.Machine

/-- Settles O6: the presented word is taken, and the mask of `ILLEGAL_OP` is bit 0. -/
theorem illegalWordSetsOnlyIllegalOp : Obligations.IllegalWordSetsOnlyIllegalOp := by
  unfold Obligations.IllegalWordSetsOnlyIllegalOp
  intro s w rest hp hw
  rw [step_of_pending hp, stepWord_of_not_legal hw]
  rfl

/-- Settles O9: INIT notes a repetition, issues its two actions and resets the decoder, which adds `TmrStop`. -/
theorem initConfiguresAndResets : Obligations.InitConfiguresAndResets := by
  unfold Obligations.InitConfiguresAndResets
  refine ⟨fun s => ?_, fun w => decode_eq_init_iff⟩
  rw [exec_init, noteRepeatedInit_eq]
  simp [State.resetDecoder, State.act]

/-- Settles O10: SETCB is one update, and the two fields its mask leaves open are its operands. -/
theorem setcbInstallsOrRemovesTheConsumer : Obligations.SetcbInstallsOrRemovesTheConsumer := by
  unfold Obligations.SetcbInstallsOrRemovesTheConsumer
  refine ⟨fun s en ctx => exec_setcb en ctx s, fun w hw => ?_⟩
  rw [decode_setcb_of_mask hw, Word.lvl, Word.data_eq_ofNat]

end Sys2Proof.Proofs
end

section
/-! PROOFS. The fault register (60_exceptions.md R240–R243): no handler reads it, and each adds at most one bit to it,
the same bit whatever the register holds. -/

namespace Sys2Proof.Machine

/-! ### Handlers and the fault register (60_exceptions.md R242, R243) -/

/-- The state with another value in the fault register. -/
def State.withFault (s : State) (g : BitVec 4) : State := { s with fault := g }

/-- `F` takes the fault register from `s` along, whatever it holds. -/
def CarriesFault (F : State → State) (s : State) : Prop :=
  ∀ g : BitVec 4, F (s.withFault g) = (F s).withFault g

/-- No fault bit, or one (30_encoding.md R88). -/
def AtMostOneBit (m : BitVec 4) : Prop := m = 0 ∨ ∃ f : FaultBit, m = f.mask

/-- `F` adds at most one bit to the fault register of `s`, the same whatever the register holds, and nothing else it
does depends on the register. -/
def RaisesAtMostOneBit (F : State → State) (s : State) : Prop :=
  ∃ m, AtMostOneBit m ∧ ∀ g : BitVec 4, F (s.withFault g) = (F s).withFault (g ||| m)

section
variable {F G : State → State} {s : State}

theorem CarriesFault.raisesAtMostOne (h : CarriesFault F s) : RaisesAtMostOneBit F s :=
  ⟨0, .inl rfl, fun g => by rw [BitVec.ofNat_eq_ofNat, BitVec.or_zero, h g]⟩

theorem raise_raisesAtMostOne (f : FaultBit) (s : State) : RaisesAtMostOneBit (fun u => u.raise f) s :=
  ⟨f.mask, .inr ⟨f, rfl⟩, fun _ => rfl⟩

/-- The case of a handler that `s` selects, when the choice does not read the fault register. -/
theorem RaisesAtMostOneBit.of_case (hG : RaisesAtMostOneBit G s)
    (h : ∀ g : BitVec 4, F (s.withFault g) = G (s.withFault g)) : RaisesAtMostOneBit F s := by
  obtain ⟨m, hm, e⟩ := hG
  have hs : F s = G s := h s.fault
  exact ⟨m, hm, fun g => by rw [h g, e g, hs]⟩

/-- What raises no bit may follow. -/
theorem RaisesAtMostOneBit.andThen (hF : RaisesAtMostOneBit F s) (hG : ∀ u, CarriesFault G u) :
    RaisesAtMostOneBit (fun u => G (F u)) s := by
  obtain ⟨m, hm, e⟩ := hF
  exact ⟨m, hm, fun g => (congrArg G (e g)).trans (hG (F s) (g ||| m))⟩

/-- What raises no bit may come before. -/
theorem RaisesAtMostOneBit.after (hG : RaisesAtMostOneBit G (F s)) (hF : CarriesFault F s) :
    RaisesAtMostOneBit (fun u => G (F u)) s := by
  obtain ⟨m, hm, e⟩ := hG
  exact ⟨m, hm, fun g => (congrArg G (hF g)).trans (e g)⟩

theorem RaisesAtMostOneBit.fault (h : RaisesAtMostOneBit F s) :
    (F s).fault = s.fault ∨ ∃ f : FaultBit, (F s).fault = s.fault ||| f.mask := by
  obtain ⟨m, hm, e⟩ := h
  have hs : (F s).fault = s.fault ||| m := congrArg State.fault (e s.fault)
  obtain rfl | ⟨f, rfl⟩ := hm
  · exact .inl (hs.trans BitVec.or_zero)
  · exact .inr ⟨f, hs⟩

end

theorem id_carriesFault (s : State) : CarriesFault id s := fun _ => rfl

theorem resetDecoder_carriesFault (s : State) : CarriesFault State.resetDecoder s := fun _ => rfl

theorem repFail_carriesFault (s : State) : CarriesFault repFail s := fun _ => rfl

/-! ### The synchronization detector (41_sync.md R130–R140) -/

theorem syncEndPulse_raisesAtMostOne (p : Ticks) (s : State) : RaisesAtMostOneBit (syncEndPulse p) s := by
  by_cases h : s.P.syncPulseMin < p
  · have hcal : CarriesFault (syncCalibrate p) s := fun _ => rfl
    exact hcal.raisesAtMostOne.of_case fun _ => if_pos h
  · exact (resetDecoder_carriesFault s).raisesAtMostOne.of_case fun _ => if_neg h

theorem syncEndGap_raisesAtMostOne (g : Ticks) (s : State) : RaisesAtMostOneBit (syncEndGap g) s := by
  by_cases h : s.P.syncGapMin < g
  · have hcomplete : CarriesFault syncComplete s := fun _ => rfl
    exact hcomplete.raisesAtMostOne.of_case fun _ => if_pos h
  · exact (resetDecoder_carriesFault s).raisesAtMostOne.of_case fun _ => if_neg h

theorem syncEdge_raisesAtMostOne (lvl : Bool) (el : Ticks) (s : State) : RaisesAtMostOneBit (syncEdge lvl el) s := by
  have hid := (id_carriesFault s).raisesAtMostOne
  cases hs : s.sync with
  | waitRise =>
    cases lvl with
    | true =>
      have hstart : CarriesFault syncStartPulse s := fun _ => rfl
      exact hstart.raisesAtMostOne.of_case fun _ => syncEdge_waitRise_rising el hs
    | false => exact hid.of_case fun _ => syncEdge_waitRise_falling el hs
  | waitFall =>
    cases lvl with
    | true => exact hid.of_case fun _ => syncEdge_waitFall_rising el hs
    | false => exact (syncEndPulse_raisesAtMostOne el s).of_case fun _ => syncEdge_waitFall_falling el hs
  | waitRiseEnd =>
    cases lvl with
    | true => exact (syncEndGap_raisesAtMostOne el s).of_case fun _ => syncEdge_waitRiseEnd_rising el hs
    | false => exact hid.of_case fun _ => syncEdge_waitRiseEnd_falling el hs
  | done => exact hid.of_case fun _ => syncEdge_done lvl el hs

theorem syncTick_raisesAtMostOne (s : State) : RaisesAtMostOneBit syncTick s := by
  by_cases h : s.sync = .waitFall ∨ s.sync = .waitRiseEnd
  · exact (resetDecoder_carriesFault s).raisesAtMostOne.of_case fun _ => (syncTick_eq _).trans (if_pos h)
  · exact (id_carriesFault s).raisesAtMostOne.of_case fun _ => (syncTick_eq _).trans (if_neg h)

/-! ### The delivery (40_dispatch.md R118) and the repeat-frame detector (44_repeat.md R190–R201) -/

theorem deliver_raisesAtMostOne (addr : Address) (cmd : Command) (rep : Bool) (s : State) :
    RaisesAtMostOneBit (fun u => u.deliver addr cmd rep) s := by
  by_cases h : s.cbValid
  · have hemit : CarriesFault (fun u => u.act (.emit u.cbCtx addr cmd rep)) s := fun _ => rfl
    exact hemit.raisesAtMostOne.of_case fun _ => if_pos h
  · exact (raise_raisesAtMostOne .noConsumer s).of_case fun _ => if_neg h

theorem repConfirm_raisesAtMostOne (s : State) : RaisesAtMostOneBit repConfirm s :=
  have hdeliver : RaisesAtMostOneBit (fun u => u.deliver u.lastAddress u.lastCommand true) s :=
    (deliver_raisesAtMostOne s.lastAddress s.lastCommand true s).of_case fun _ => rfl
  hdeliver.andThen (G := fun t => State.startHousekeeping { t with elapsedMs := 0, rep := .waitRise }) fun _ _ => rfl

theorem repEndPulse_raisesAtMostOne (p : Ticks) (s : State) : RaisesAtMostOneBit (repEndPulse p) s := by
  by_cases h : s.P.repPulseMin < p
  · have hgap : CarriesFault repStartGap s := fun _ => rfl
    exact hgap.raisesAtMostOne.of_case fun _ => if_pos h
  · exact (repFail_carriesFault s).raisesAtMostOne.of_case fun _ => if_neg h

theorem repEndGap_raisesAtMostOne (g : Ticks) (s : State) : RaisesAtMostOneBit (repEndGap g) s := by
  by_cases h : s.P.repGapMin < g
  · exact (repConfirm_raisesAtMostOne s).of_case fun _ => if_pos h
  · exact (repFail_carriesFault s).raisesAtMostOne.of_case fun _ => if_neg h

theorem repEdge_raisesAtMostOne (lvl : Bool) (el : Ticks) (s : State) : RaisesAtMostOneBit (repEdge lvl el) s := by
  have hid := (id_carriesFault s).raisesAtMostOne
  cases hr : s.rep with
  | waitRise =>
    cases lvl with
    | true =>
      have hstart : CarriesFault repStartPulse s := fun _ => rfl
      exact hstart.raisesAtMostOne.of_case fun _ => repEdge_waitRise_rising el hr
    | false => exact hid.of_case fun _ => repEdge_waitRise_falling el hr
  | waitFall =>
    cases lvl with
    | true => exact hid.of_case fun _ => repEdge_waitFall_rising el hr
    | false => exact (repEndPulse_raisesAtMostOne el s).of_case fun _ => repEdge_waitFall_falling el hr
  | waitRiseEnd =>
    cases lvl with
    | true => exact (repEndGap_raisesAtMostOne el s).of_case fun _ => repEdge_waitRiseEnd_rising el hr
    | false => exact hid.of_case fun _ => repEdge_waitRiseEnd_falling el hr
  | fault => exact hid.of_case fun _ => repEdge_fault lvl el hr

theorem housekeepingTick_raisesAtMostOne (s : State) : RaisesAtMostOneBit housekeepingTick s := by
  by_cases h : s.P.repeatTimeoutMs.toNat < s.elapsedMs.toNat + 10
  · exact (resetDecoder_carriesFault s).raisesAtMostOne.of_case fun _ => if_pos h
  · have hcount : CarriesFault (fun u => { u with elapsedMs := u.elapsedMs + 10#32 }) s := fun _ => rfl
    exact hcount.raisesAtMostOne.of_case fun _ => if_neg h

theorem repTick_raisesAtMostOne (s : State) : RaisesAtMostOneBit repTick s := by
  obtain ⟨h, -⟩ | ⟨h, -⟩ := repTick_cases s
  · exact (repFail_carriesFault s).raisesAtMostOne.of_case fun _ => repTick_of_measuring h
  · exact (housekeepingTick_raisesAtMostOne s).of_case fun _ => repTick_of_housekeeping h

/-! ### The bit sampler (42_sampler.md R150–R155) -/

theorem storeAndDeliver_raisesAtMostOne (addr : Address) (cmd : Command) (s : State) :
    RaisesAtMostOneBit (storeAndDeliver addr cmd) s :=
  (deliver_raisesAtMostOne addr cmd false _).after
    (F := fun u => { u with lastAddress := addr, lastCommand := cmd, cmdReceived := true }) fun _ => rfl

theorem frameComplete_raisesAtMostOne (s : State) : RaisesAtMostOneBit frameComplete s := by
  obtain ⟨h, -⟩ | ⟨addr, cmd, h, -⟩ := frameComplete_cases s
  · exact (resetDecoder_carriesFault s).raisesAtMostOne.of_case fun _ => frameComplete_of_none h
  · have henter : RaisesAtMostOneBit (fun u => enterWaitRepeat (storeAndDeliver addr cmd u)) s :=
      (storeAndDeliver_raisesAtMostOne addr cmd s).andThen fun _ _ => rfl
    exact henter.of_case fun _ => frameComplete_of_some h

theorem finishRawBit_raisesAtMostOne (s : State) : RaisesAtMostOneBit finishRawBit s := by
  by_cases h : s.bitsReceived = 96#8
  · exact (frameComplete_raisesAtMostOne s).of_case fun _ => if_pos h
  · exact (id_carriesFault s).raisesAtMostOne.of_case fun _ => if_neg h

theorem rearmIfSet_carriesFault (s : State) : CarriesFault rearmIfSet s := fun g => by
  rw [rearmIfSet_eq, rearmIfSet_eq]
  rfl

/-- The free counts and the free bitmap do not depend on the fault register either (log entries 3 and 4). -/
theorem accumulate_rearmIfSet_carriesFault (lvl : Bool) (s : State) :
    CarriesFault (fun u => accumulate lvl (rearmIfSet u)) s := fun g =>
  congrArg (accumulate lvl) (rearmIfSet_carriesFault s g)

theorem sampleTick_raisesAtMostOne (lvl : Bool) (s : State) : RaisesAtMostOneBit (sampleTick lvl) s := by
  have hacc := accumulate_rearmIfSet_carriesFault lvl s
  have hcount (g : BitVec 4) : (accumulate lvl (rearmIfSet (s.withFault g))).sampleCount =
      ((accumulate lvl (rearmIfSet s)).withFault g).sampleCount := congrArg State.sampleCount (hacc g)
  by_cases h : (accumulate lvl (rearmIfSet s)).sampleCount = 3#2
  · have hresolve : CarriesFault (fun u => resolveBit (accumulate lvl (rearmIfSet u))) s := fun g =>
      congrArg resolveBit (hacc g)
    exact ((finishRawBit_raisesAtMostOne _).after hresolve).of_case fun g => if_pos ((hcount g).trans h)
  · exact hacc.raisesAtMostOne.of_case fun g => if_neg ((hcount g).trans_ne h)

/-! ### Every instruction and every step -/

theorem noteRepeatedInit_raisesAtMostOne (s : State) : RaisesAtMostOneBit noteRepeatedInit s := by
  by_cases h : s.initialized
  · exact (raise_raisesAtMostOne .multiInit s).of_case fun _ => if_pos h
  · exact (id_carriesFault s).raisesAtMostOne.of_case fun _ => if_neg h

/-- `M` answers a state from `s` with any fault register, and adds at most one bit to the register. -/
def AnswersRaisingAtMostOneBit (M : State → Host.Outcome State Fault Refusal) (s : State) : Prop :=
  ∃ F, RaisesAtMostOneBit F s ∧ ∀ g : BitVec 4, M (s.withFault g) = .next (F (s.withFault g))

theorem exec_edge_raisesAtMostOne (lvl : Bool) (el : Ticks) (s : State) :
    AnswersRaisingAtMostOneBit (exec (.edge lvl el)) s := by
  cases hi : s.initialized with
  | false => exact ⟨_, raise_raisesAtMostOne .eventBeforeInit s, fun _ => exec_edge_beforeInit lvl el hi⟩
  | true =>
    cases ht : s.top with
    | synchronizing => exact ⟨_, syncEdge_raisesAtMostOne lvl el s, fun _ => exec_edge_synchronizing lvl el hi ht⟩
    | receivingCommand =>
      exact ⟨_, (id_carriesFault s).raisesAtMostOne, fun _ => exec_edge_receivingCommand lvl el hi ht⟩
    | waitRepeat => exact ⟨_, repEdge_raisesAtMostOne lvl el s, fun _ => exec_edge_waitRepeat lvl el hi ht⟩

theorem exec_tick_raisesAtMostOne (lvl : Bool) (s : State) : AnswersRaisingAtMostOneBit (exec (.tick lvl)) s := by
  cases hi : s.initialized with
  | false => exact ⟨_, raise_raisesAtMostOne .eventBeforeInit s, fun _ => exec_tick_beforeInit lvl hi⟩
  | true =>
    cases ht : s.top with
    | synchronizing => exact ⟨_, syncTick_raisesAtMostOne s, fun _ => exec_tick_synchronizing lvl hi ht⟩
    | receivingCommand => exact ⟨_, sampleTick_raisesAtMostOne lvl s, fun _ => exec_tick_receivingCommand lvl hi ht⟩
    | waitRepeat => exact ⟨_, repTick_raisesAtMostOne s, fun _ => exec_tick_waitRepeat lvl hi ht⟩

/-- An instruction reaches at most one of the places that raise a fault bit. -/
theorem exec_raisesAtMostOne (i : Instr) (s : State) : AnswersRaisingAtMostOneBit (exec i) s := by
  cases i with
  | nop => exact ⟨id, (id_carriesFault s).raisesAtMostOne, fun _ => rfl⟩
  | edge lvl el => exact exec_edge_raisesAtMostOne lvl el s
  | tick lvl => exact exec_tick_raisesAtMostOne lvl s
  | init =>
    exact ⟨_, (noteRepeatedInit_raisesAtMostOne s).andThen
      (G := fun t => { ((t.act .pinConfig).act .tmrConfig).resetDecoder with initialized := true }) fun _ _ => rfl,
      fun _ => exec_init _⟩
  | setcb en ctx =>
    have hset : CarriesFault (fun u => { u with cbValid := en, cbCtx := ctx }) s := fun _ => rfl
    exact ⟨_, hset.raisesAtMostOne, fun _ => exec_setcb en ctx _⟩

theorem stepWord_raisesAtMostOne (w : Word) (s : State) : AnswersRaisingAtMostOneBit (stepWord w) s := by
  cases hd : decode w with
  | ok i =>
    obtain ⟨F, hF, e⟩ := exec_raisesAtMostOne i s
    exact ⟨F, hF, fun g => (stepWord_of_decode hd _).trans (e g)⟩
  | error r =>
    have hillegal : ¬Legal w := exists_decode_error_iff.1 ⟨r, hd⟩
    exact ⟨_, raise_raisesAtMostOne .illegalOp s, fun _ => stepWord_of_not_legal hillegal _⟩

/-- Without a word the state is held (60_exceptions.md R257). -/
theorem step_of_pending_nil {s : State} (h : s.pending = []) : step s = .next s.idle := by
  simp [step, State.takeWord, h]

theorem step_raisesAtMostOne (s : State) : AnswersRaisingAtMostOneBit step s := by
  cases hp : s.pending with
  | nil =>
    have hidle : CarriesFault State.idle s := fun _ => rfl
    exact ⟨_, hidle.raisesAtMostOne, fun _ => step_of_pending_nil hp⟩
  | cons w rest =>
    obtain ⟨F, hF, e⟩ := stepWord_raisesAtMostOne w { s with pending := rest, acts := [] }
    have htake : CarriesFault (fun u => { u with pending := rest, acts := [] }) s := fun _ => rfl
    exact ⟨fun u => F { u with pending := rest, acts := [] }, hF.after htake,
      fun g => (step_of_pending (s := s.withFault g) hp).trans (e g)⟩

end Sys2Proof.Machine

namespace Sys2Proof.Proofs

open Sys2Proof.Machine

/-- Settles O45: every case of a step answers a state, also in the states no run reaches. -/
theorem noStepStopsTheBlock : Obligations.NoStepStopsTheBlock := by
  unfold Obligations.NoStepStopsTheBlock
  intro s
  obtain ⟨F, -, e⟩ := step_raisesAtMostOne s
  exact ⟨F s, e s.fault⟩

/-- Settles O49: the bit the step adds, if any, is added to what the register holds. -/
theorem atMostOneFaultBitIsSetAndNoneCleared : Obligations.AtMostOneFaultBitIsSetAndNoneCleared := by
  unfold Obligations.AtMostOneFaultBitIsSetAndNoneCleared
  intro s t h
  obtain ⟨F, hF, e⟩ := step_raisesAtMostOne s
  obtain rfl : F s = t := Host.Outcome.next.inj ((e s.fault).symm.trans h)
  refine ⟨hF.fault, fun f hf => ?_⟩
  unfold State.hasFault at hf ⊢
  obtain hsame | ⟨f', hset⟩ := hF.fault
  · rwa [hsame]
  · rw [hset, BitVec.getLsbD_or, hf, Bool.true_or]

/-- Settles O50: with any register the step takes the same case, and adds the same bit to what the register holds. -/
theorem faultBitsHaveNoEffect : Obligations.FaultBitsHaveNoEffect := by
  unfold Obligations.FaultBitsHaveNoEffect
  intro s t g h
  obtain ⟨F, ⟨m, -, hF⟩, e⟩ := step_raisesAtMostOne s
  obtain rfl : F s = t := Host.Outcome.next.inj ((e s.fault).symm.trans h)
  refine ⟨g ||| m, (e g).trans (congrArg Host.Outcome.next (hF g)), ?_⟩
  ext i hi
  simpa using Or.inl

/-- Settles O7: the idle step. -/
theorem stepWithoutAWordHoldsTheState : Obligations.StepWithoutAWordHoldsTheState := by
  unfold Obligations.StepWithoutAWordHoldsTheState
  exact fun s h => step_of_pending_nil h

end Sys2Proof.Proofs
end

section
/-! PROOFS. The contract of the timer (60_exceptions.md R251): the timer after `k` ticks, in each of its three modes. -/

namespace Sys2Proof.Machine

theorem Timer.ticks_stopped (c d k : Nat) : Timer.ticks ⟨.stopped, c, d⟩ k = ⟨.stopped, c, d⟩ := by
  induction k with
  | zero => rfl
  | succ k ih => rw [Timer.ticks, ih]; rfl

theorem Timer.ticks_oneShot_of_lt {n : Ticks} {k : Nat} (h : k < n.toNat) :
    Timer.ticks ⟨.oneShot n, 0, 0⟩ k = ⟨.oneShot n, k, 0⟩ := by
  induction k with
  | zero => rfl
  | succ k ih => rw [Timer.ticks, ih (Nat.lt_of_succ_lt h), Timer.tick_oneShot_of_ne h.ne]

/-- The tick number `n` is the expiry, and the stopped timer keeps its count (log entry 9). -/
theorem Timer.ticks_oneShot_of_le {n : Ticks} {k : Nat} (hn : 1 ≤ n.toNat) (h : n.toNat ≤ k) :
    Timer.ticks ⟨.oneShot n, 0, 0⟩ k = ⟨.stopped, n.toNat, 1⟩ := by
  induction k, h using Nat.le_induction with
  | base =>
    obtain ⟨m, hm⟩ := Nat.exists_eq_add_of_le' hn
    rw [hm, Timer.ticks, Timer.ticks_oneShot_of_lt (by omega), Timer.tick_oneShot_of_eq hm.symm]
  | succ k _ ih => rw [Timer.ticks, ih]; rfl

theorem Timer.ticks_continuous (n : Ticks) (k : Nat) :
    Timer.ticks ⟨.continuous n, 0, 0⟩ k = ⟨.continuous n, k, k / n.toNat⟩ := by
  induction k with
  | zero => rw [Nat.zero_div]; rfl
  | succ k ih =>
    rw [Timer.ticks, ih, Nat.succ_div]
    by_cases h : n.toNat ∣ k + 1
    · rw [Timer.tick_continuous_of_dvd h, if_pos h]
    · rw [Timer.tick_continuous_of_not_dvd h, if_neg h]; rfl

/-- The saturated count fits the 32 bits of the reading. -/
theorem Timer.elapsed_toNat (t : Timer) : t.elapsed.toNat = min t.count (2 ^ 32 - 1) := by
  rw [Timer.elapsed, BitVec.toNat_ofNat, Nat.mod_eq_of_lt (by omega)]

end Sys2Proof.Machine

namespace Sys2Proof.Proofs

open Sys2Proof.Machine

/-- Settles O57: the timer after `k` ticks of each mode, on both sides of the expiry of a one-shot. -/
theorem timerExpiresAsItsContractSays : Obligations.TimerExpiresAsItsContractSays := by
  unfold Obligations.TimerExpiresAsItsContractSays
  intro t n k hn
  have hfits : n.toNat < 2 ^ 32 := n.isLt
  have hcont : (t.apply (.tmrContinuous n)).ticks k = ⟨.continuous n, k, k / n.toNat⟩ := Timer.ticks_continuous n k
  have hstop : (t.apply .tmrStop).ticks k = ⟨.stopped, t.count, 0⟩ := Timer.ticks_stopped t.count 0 k
  simp only [Timer.elapsed_toNat, hcont, hstop]
  by_cases h : n.toNat ≤ k
  · have hone : (t.apply (.tmrOneShot n)).ticks k = ⟨.stopped, n.toNat, 1⟩ := Timer.ticks_oneShot_of_le hn h
    simp only [hone, if_pos h, true_and, and_true]
    omega
  · have hone : (t.apply (.tmrOneShot n)).ticks k = ⟨.oneShot n, k, 0⟩ :=
      Timer.ticks_oneShot_of_lt (Nat.lt_of_not_le h)
    simp only [hone, if_neg h, true_and, and_true]
    omega

end Sys2Proof.Proofs
end

section
/-! PROOFS. Reset and boot (70_reset_and_hazards.md R280–R285): the power-on state, the decoder reset as a power-on that
keeps the host's fields, and the two orders of the boot sequence. -/

namespace Sys2Proof.Machine

/-- A legal record is powered on (00_scope.md R9). -/
theorem powerOn_legal (P : LegalParams) : powerOn P.val = .next (State.por P) := dif_pos P.legal

theorem powerOn_illegal {P : Params} (h : ¬P.Legal) : powerOn P = .refused .illegalParams := dif_neg h

/-- The reset of the decoder is the power-on state, but for the fields it keeps and its one action (70_reset_and_hazards.md
R281). -/
theorem resetDecoder_eq_por (s : State) :
    s.resetDecoder =
      { State.por s.params with
        cbValid := s.cbValid, cbCtx := s.cbCtx, initialized := s.initialized, fault := s.fault, pending := s.pending,
        acts := s.acts ++ [.tmrStop] } := rfl

/-- A step on the word of an instruction runs the instruction. -/
theorem step_encode {s : State} {i : Instr} {rest : List Word} (h : s.pending = encode i :: rest) :
    step s = exec i { s with pending := rest, acts := [] } := by
  rw [step_of_pending h, stepWord_of_decode (decode_encode i)]

theorem runTrace_encode {s t : State} {i : Instr} {rest : List Word} (hp : s.pending = encode i :: rest)
    (ht : exec i { s with pending := rest, acts := [] } = .next t) (n : Nat) (h : List Action) :
    runTrace (n + 1) s h = runTrace n t (h ++ t.acts) :=
  runTrace_succ ((step_encode hp).trans ht) n h

end Sys2Proof.Machine

namespace Sys2Proof.Proofs

open Sys2Proof.Machine

/-- Settles O38: legality alone decides whether power-on answers, and every field of the state it answers is 0. -/
theorem powerOnZeroesOrRefuses : Obligations.PowerOnZeroesOrRefuses := by
  unfold Obligations.PowerOnZeroesOrRefuses
  refine ⟨powerOn_legal, fun P => powerOn_illegal, ⟨Config.params, rfl⟩, ?_⟩
  rintro P s rfl
  exact ⟨rfl, rfl, rfl, rfl, rfl, rfl, rfl, rfl, rfl, rfl, rfl, rfl, rfl, rfl, rfl, rfl, rfl, rfl, rfl⟩

/-- Settles O39: the update `resetDecoder` makes, with its action appended. -/
theorem resetDecoderZeroesTheProtocolFields : Obligations.ResetDecoderZeroesTheProtocolFields := by
  unfold Obligations.ResetDecoderZeroesTheProtocolFields
  exact fun s => rfl

/-- Settles O40: after a reset the state is power-on's but for the kept fields, in which the two states agree. -/
theorem resetForgetsTheProtocolState : Obligations.ResetForgetsTheProtocolState := by
  unfold Obligations.ResetForgetsTheProtocolState
  intro s s' hvalid hctx hinit hfault hparams hpending hacts hacts'
  refine ⟨?same, ?action, ?again⟩
  case same =>
    rw [resetDecoder_eq_por, resetDecoder_eq_por, hvalid, hctx, hinit, hfault, hparams, hpending, hacts, hacts']
  case action => rw [State.resetDecoder_acts, hacts, List.nil_append]
  case again =>
    rw [resetDecoder_eq_por, resetDecoder_eq_por, hacts]
    rfl

/-- Settles O41: INIT resets a decoder that is already reset, so only the kept fields differ from power-on. -/
theorem bootReachesTheOperatingState : Obligations.BootReachesTheOperatingState := by
  unfold Obligations.BootReachesTheOperatingState
  intro P ctx
  constructor
  · exact Eq.trans (runTrace_encode rfl (exec_setcb true ctx _) 1 []) (runTrace_encode rfl (exec_init _) 0 _)
  · exact Eq.trans (runTrace_encode rfl (exec_init _) 1 []) (runTrace_encode rfl (exec_setcb true ctx _) 0 _)

end Sys2Proof.Proofs
end

section
/-! PROOFS. The timer while the block waits for a header (70_reset_and_hazards.md R281, R294): a step comes to that wait only
by a reset, which stops the timer, or by staying in it without an action. -/

namespace Sys2Proof.Machine

/-- What the timer needs of a step from `s` to `t`: the wait for a header is where it was and nothing was issued, or
`TmrStop` was issued last, or the block does not wait for a header. -/
inductive HeaderWaitOutcome (s t : State) : Prop where
  | same (top : t.top = s.top) (sync : t.sync = s.sync) (acts : t.acts = s.acts)
  | stopped (l : List Action) (acts : t.acts = l ++ [.tmrStop])
  | elsewhere (h : t.top = .synchronizing → t.sync ≠ .waitRise)

theorem HeaderWaitOutcome.refl (s : State) : HeaderWaitOutcome s s := .same rfl rfl rfl

theorem resetDecoder_headerWait (s u : State) : HeaderWaitOutcome s u.resetDecoder := .stopped u.acts rfl

theorem HeaderWaitOutcome.of_top_ne {s t : State} (h : t.top ≠ .synchronizing) : HeaderWaitOutcome s t :=
  .elsewhere fun ht => absurd ht h

theorem syncEdge_headerWait (lvl : Bool) (el : Ticks) (s : State) : HeaderWaitOutcome s (syncEdge lvl el s) := by
  obtain e | ⟨-, -, e⟩ | ⟨-, -, e⟩ | ⟨-, -, e⟩ := syncEdge_cases lvl el s <;> rw [e]
  · exact .refl s
  · exact .elsewhere fun _ => nofun
  · obtain ⟨-, e⟩ | ⟨-, e⟩ := syncEndPulse_cases el s <;> rw [e]
    · exact .elsewhere fun _ => nofun
    · exact resetDecoder_headerWait s s
  · obtain ⟨-, e⟩ | ⟨-, e⟩ := syncEndGap_cases el s <;> rw [e]
    · exact .of_top_ne nofun
    · exact resetDecoder_headerWait s s

theorem syncTick_headerWait (s : State) : HeaderWaitOutcome s (syncTick s) := by
  obtain e | e := syncTick_cases s <;> rw [e]
  · exact .refl s
  · exact resetDecoder_headerWait s s

/-- A sampling tick goes on receiving, opens the repeat window or resets the decoder. -/
theorem sampleTick_headerWait (lvl : Bool) {s : State} (ht : s.top = .receivingCommand) :
    HeaderWaitOutcome s (sampleTick lvl s) := by
  obtain ⟨-, e⟩ | ⟨-, ⟨-, e⟩ | ⟨-, e | ⟨addr, cmd, e⟩⟩⟩ := sampleTick_outcomes lvl s <;> rw [e]
  · exact .of_top_ne (by simp [ht])
  · exact .of_top_ne (by simp [ht])
  · exact resetDecoder_headerWait s _
  · exact .of_top_ne nofun

theorem repTick_headerWait {s : State} (ht : s.top = .waitRepeat) : HeaderWaitOutcome s (repTick s) := by
  obtain e | k := repTick_keepsWindow s
  · rw [e]
    exact resetDecoder_headerWait s s
  · exact .of_top_ne (by simp [k.top, ht])

theorem exec_edge_headerWait {lvl : Bool} {el : Ticks} {s t : State} (h : exec (.edge lvl el) s = .next t) :
    HeaderWaitOutcome s t := by
  obtain ⟨-, rfl⟩ | ⟨-, ⟨-, rfl⟩ | ⟨-, rfl⟩ | ⟨ht, rfl⟩⟩ := execEdge_cases h
  · exact .same rfl rfl rfl
  · exact syncEdge_headerWait lvl el s
  · exact .refl t
  · exact .of_top_ne (by simp [repEdge_top, ht])

theorem exec_tick_headerWait {lvl : Bool} {s t : State} (h : exec (.tick lvl) s = .next t) : HeaderWaitOutcome s t := by
  obtain ⟨-, rfl⟩ | ⟨-, ⟨-, rfl⟩ | ⟨ht, rfl⟩ | ⟨ht, rfl⟩⟩ := execTick_cases h
  · exact .same rfl rfl rfl
  · exact syncTick_headerWait s
  · exact sampleTick_headerWait lvl ht
  · exact repTick_headerWait ht

theorem exec_headerWait {i : Instr} {s t : State} (h : exec i s = .next t) : HeaderWaitOutcome s t := by
  cases i with
  | nop => cases h; exact .refl s
  | edge lvl el => exact exec_edge_headerWait h
  | tick lvl => exact exec_tick_headerWait h
  | init => cases h; exact .stopped _ rfl
  | setcb en ctx => cases h; exact .same rfl rfl rfl

/-- An action list that ends in `TmrStop` leaves the timer idle, whatever was issued before. -/
theorem timerIdle_append_tmrStop (h l : List Action) : TimerIdle (h ++ (l ++ [.tmrStop])) := by
  right
  simp [lastTimer, Action.isTimer]

/-- The timer is idle where the block waits for a header, from a step that began with no action. -/
theorem HeaderWaitOutcome.timerIdle {s t : State} {h : List Action} (k : HeaderWaitOutcome s t) (h0 : s.acts = [])
    (hs : s.top = .synchronizing → s.sync = .waitRise → TimerIdle h) (htop : t.top = .synchronizing)
    (hsync : t.sync = .waitRise) : TimerIdle (h ++ t.acts) := by
  cases k with
  | same top sync acts =>
    rw [acts, h0, List.append_nil]
    exact hs (top ▸ htop) (sync ▸ hsync)
  | stopped l acts =>
    rw [acts]
    exact timerIdle_append_tmrStop h l
  | elsewhere hne => exact absurd hsync (hne htop)

end Sys2Proof.Machine

namespace Sys2Proof.Proofs

open Sys2Proof.Machine

/-- Settles O55: a step begins with no action, and comes to the wait for a header by a reset or by staying in it. -/
theorem timerIsIdleWhileWaitingForAHeader : Obligations.TimerIsIdleWhileWaitingForAHeader := by
  unfold Obligations.TimerIsIdleWhileWaitingForAHeader
  intro s t h hs hstep
  obtain ⟨-, rfl⟩ | ⟨w, rest, -, ⟨i, -, hi⟩ | ⟨r, -, rfl⟩⟩ := step_cases hstep
  · exact (HeaderWaitOutcome.refl s.idle).timerIdle rfl hs
  · exact (exec_headerWait hi).timerIdle rfl hs
  · exact (HeaderWaitOutcome.refl (State.illegalWord { s with pending := rest, acts := [] })).timerIdle rfl hs

end Sys2Proof.Proofs
end

section
/-! PROOFS. Quiescence without edges (70_reset_and_hazards.md R294): how many ticks the block is from the wait for a header,
and that each tick takes one of them away. -/

namespace Sys2Proof.Machine

/-! ### The ticks to the wait for a header -/

theorem ticksToTimeout_antitone (P : Params) : Antitone (ticksToTimeout P) := by
  intro e e' h
  unfold ticksToTimeout
  omega

/-- The most TICK words until the block waits for a header, when no other word comes: a measurement ends with the first, a
frame takes the samples it lacks and then the window that opens at 50 ms, and in the window a measurement takes one more. -/
def ticksToQuiescence (s : State) : Nat :=
  match s.top with
  | .synchronizing => if s.sync = .waitRise then 0 else 1
  | .receivingCommand => 288 - (3 * s.bitsReceived.toNat + s.sampleCount.toNat) + ticksToTimeout s.P 50
  | .waitRepeat =>
    (if s.rep = .waitFall ∨ s.rep = .waitRiseEnd then 1 else 0) + ticksToTimeout s.P s.elapsedMs.toNat

theorem ticksToQuiescence_of_synchronizing {s : State} (ht : s.top = .synchronizing) :
    ticksToQuiescence s = if s.sync = .waitRise then 0 else 1 := by simp [ticksToQuiescence, ht]

theorem ticksToQuiescence_of_receivingCommand {s : State} (ht : s.top = .receivingCommand) :
    ticksToQuiescence s =
      288 - (3 * s.bitsReceived.toNat + s.sampleCount.toNat) + ticksToTimeout s.P 50 := by simp [ticksToQuiescence, ht]

theorem ticksToQuiescence_of_measuring {s : State} (ht : s.top = .waitRepeat)
    (hr : s.rep = .waitFall ∨ s.rep = .waitRiseEnd) :
    ticksToQuiescence s = ticksToTimeout s.P s.elapsedMs.toNat + 1 := by
  simp [ticksToQuiescence, ht, hr, Nat.add_comm]

theorem ticksToQuiescence_of_housekeeping {s : State} (ht : s.top = .waitRepeat)
    (hr : s.rep = .waitRise ∨ s.rep = .fault) : ticksToQuiescence s = ticksToTimeout s.P s.elapsedMs.toNat := by
  obtain hr | hr := hr <;> simp [ticksToQuiescence, ht, hr]

@[simp] theorem ticksToQuiescence_resetDecoder (s : State) : ticksToQuiescence s.resetDecoder = 0 := rfl

/-- Only the wait for a header is no tick away from it: a timeout is always at least one. -/
theorem awaitsHeader_of_ticksToQuiescence_eq_zero {s : State} (h : ticksToQuiescence s = 0) :
    s.top = .synchronizing ∧ s.sync = .waitRise := by
  unfold ticksToQuiescence ticksToTimeout at h
  cases ht : s.top with
  | synchronizing => simpa [ht] using h
  | receivingCommand => simp [ht] at h
  | waitRepeat => simp [ht] at h

/-- No state is further away than the bound of R294. -/
theorem ticksToQuiescence_le_quiescenceBound (s : State) : ticksToQuiescence s ≤ quiescenceBound s.P := by
  have hanti := ticksToTimeout_antitone s.P (Nat.zero_le s.elapsedMs.toNat)
  unfold ticksToQuiescence quiescenceBound
  cases s.top with
  | synchronizing => dsimp only; split <;> omega
  | receivingCommand => dsimp only; omega
  | waitRepeat => dsimp only; split <;> omega

/-! ### Each tick takes one of them away -/

theorem syncTick_ticksToQuiescence {s : State} (ht : s.top = .synchronizing) (hs : RunInvariant s) :
    ticksToQuiescence (syncTick s) ≤ ticksToQuiescence s - 1 := by
  have hdone := (hs.synchronizing ht).sync
  cases hsync : s.sync with
  | waitRise => simp [syncTick_eq, hsync, ticksToQuiescence_of_synchronizing ht]
  | waitFall => simp [syncTick_eq, hsync]
  | waitRiseEnd => simp [syncTick_eq, hsync]
  | done => exact absurd hsync hdone

/-- A sample is one of the 288 of its frame; the last one resets the decoder or opens the window at 50 ms. -/
theorem sampleTick_ticksToQuiescence (lvl : Bool) {s : State} (ht : s.top = .receivingCommand) (hs : RunInvariant s) :
    ticksToQuiescence (sampleTick lvl s) ≤ ticksToQuiescence s - 1 := by
  obtain ⟨⟨-, hrep, -, hbits, -⟩, hle, -⟩ := hs.receivingCommand ht
  have hcount := accumulate_rearmIfSet_sampleCount lvl (s := s) (by bv_omega)
  have hnext := nextBitsReceived_accumulate_rearmIfSet_toNat lvl (s := s) (by omega)
  rw [ticksToQuiescence_of_receivingCommand ht]
  obtain ⟨hc, e⟩ | ⟨hc, ⟨-, e⟩ | ⟨-, e | ⟨addr, cmd, e⟩⟩⟩ := sampleTick_outcomes lvl s <;> rw [e]
  · have hone : (accumulate lvl (rearmIfSet s)).sampleCount.toNat = s.sampleCount.toNat + 1 := by bv_omega
    rw [ticksToQuiescence_of_receivingCommand (by simp [ht]), hone]
    simp only [State.P_eq, accumulate_bitsReceived, accumulate_params, rearmIfSet_bitsReceived, rearmIfSet_params]
    omega
  · have htwo : s.sampleCount.toNat = 2 := by bv_omega
    rw [ticksToQuiescence_of_receivingCommand (by simp [ht]), resolveBit_bitsReceived, hnext, htwo]
    simp only [State.P_eq, resolveBit_sampleCount, resolveBit_params, accumulate_params, rearmIfSet_params]
    omega
  · simp
  · rw [enterWaitRepeat_storeAndDeliver_eq, ticksToQuiescence_of_housekeeping rfl (.inl (by simp [hrep]))]
    simp only [State.P_eq, resolveBit_params, accumulate_params, rearmIfSet_params, BitVec.reduceToNat]
    omega

theorem housekeepingTick_ticksToQuiescence {s : State} (ht : s.top = .waitRepeat)
    (hr : s.rep = .waitRise ∨ s.rep = .fault) :
    ticksToQuiescence (housekeepingTick s) ≤ ticksToQuiescence s - 1 := by
  have hs := ticksToQuiescence_of_housekeeping ht hr
  obtain ⟨-, e⟩ | ⟨hle, e⟩ := housekeepingTick_cases s <;> rw [e]
  · simp
  · rw [hs, ticksToTimeout_eq_succ hle, Nat.add_sub_cancel, ← elapsedMs_add_ten_toNat hle]
    exact (ticksToQuiescence_of_housekeeping (s := { s with elapsedMs := s.elapsedMs + 10#32 }) ht hr).le

/-- A failed measurement goes on to the housekeeping ticks, with `elapsed_ms` as it was. -/
theorem repTick_ticksToQuiescence {s : State} (ht : s.top = .waitRepeat) :
    ticksToQuiescence (repTick s) ≤ ticksToQuiescence s - 1 := by
  obtain ⟨hr, e⟩ | ⟨hr, e⟩ := repTick_cases s <;> rw [e]
  · rw [ticksToQuiescence_of_measuring ht hr, Nat.add_sub_cancel]
    exact (ticksToQuiescence_of_housekeeping (s := repFail s) ht (.inr rfl)).le
  · exact housekeepingTick_ticksToQuiescence ht hr

theorem exec_tick_ticksToQuiescence {lvl : Bool} {s t : State} (h : exec (.tick lvl) s = .next t)
    (hi : s.initialized = true) (hs : RunInvariant s) : ticksToQuiescence t ≤ ticksToQuiescence s - 1 := by
  obtain ⟨hf, -⟩ | ⟨-, ⟨ht, rfl⟩ | ⟨ht, rfl⟩ | ⟨ht, rfl⟩⟩ := execTick_cases h
  · simp [hi] at hf
  · exact syncTick_ticksToQuiescence ht hs
  · exact sampleTick_ticksToQuiescence lvl ht hs
  · exact repTick_ticksToQuiescence ht

/-! ### A run of ticks -/

/-- The block has been initialised, meets R41, and only ticks are to come. -/
structure RunsOnTicks (s : State) : Prop where
  inv : RunInvariant s
  initialized : s.initialized = true
  onlyTicks : OnlyTicks s

theorem RunsOnTicks.step {s : State} {w : Word} {rest : List Word} (h : RunsOnTicks s) (hp : s.pending = w :: rest) :
    ∃ t, step s = .next t ∧ RunsOnTicks t ∧ t.pending = rest ∧ ticksToQuiescence t ≤ ticksToQuiescence s - 1 := by
  obtain ⟨lvl, rfl⟩ := h.onlyTicks w (by simp [hp])
  obtain ⟨t, ht⟩ := exec_next (.tick lvl) { s with pending := rest, acts := [] }
  have k := exec_tick_keepsRegistration ht
  have hless := exec_tick_ticksToQuiescence ht h.initialized h.inv
  refine ⟨t, ?_, ⟨exec_tick_inv ht h.inv, k.initialized.trans h.initialized, ?_⟩, k.pending, hless⟩
  · rw [step_encode hp, ht]
  · intro v hv
    rw [k.pending] at hv
    exact h.onlyTicks v (hp ▸ List.mem_cons_of_mem _ hv)

/-- After as many ticks as it is away from the wait for a header, or more, the block is quiescent. -/
theorem RunsOnTicks.quiescent {n : Nat} {s : State} {h : List Action} (hs : RunsOnTicks s)
    (hidle : s.top = .synchronizing → s.sync = .waitRise → TimerIdle h) (hlength : n ≤ s.pending.length)
    (hn : ticksToQuiescence s ≤ n) : ∃ t h', runTrace n s h = some (t, h') ∧ Quiescent h' t := by
  induction n generalizing s h with
  | zero =>
    obtain ⟨htop, hsync⟩ := awaitsHeader_of_ticksToQuiescence_eq_zero (Nat.le_zero.1 hn)
    exact ⟨s, h, rfl, htop, hsync, hidle htop hsync⟩
  | succ n ih =>
    obtain ⟨w, rest, hp⟩ := List.exists_cons_of_length_pos (Nat.zero_lt_of_lt hlength)
    obtain ⟨t, hstep, ht, hrest, hless⟩ := hs.step hp
    rw [runTrace_succ hstep]
    exact ih ht (Proofs.timerIsIdleWhileWaitingForAHeader s t h hidle hstep) (by simpa [hrest, hp] using hlength)
      (by omega)

end Sys2Proof.Machine

namespace Sys2Proof.Proofs

open Sys2Proof.Machine

/-- Settles O56: by induction over the ticks, of which each brings the block one nearer to the wait for a header; the bound
is the most it can be away. -/
theorem quiescenceWithinTheTickBound : Obligations.QuiescenceWithinTheTickBound := by
  unfold Obligations.QuiescenceWithinTheTickBound
  exact fun s h hinv hi honly hlength hidle =>
    RunsOnTicks.quiescent ⟨hinv, hi, honly⟩ hidle hlength (ticksToQuiescence_le_quiescenceBound s)

end Sys2Proof.Proofs
end

section
/-! PROOFS. The drift of the sample clock against the line (70_reset_and_hazards.md R289). -/

namespace Sys2Proof.Machine

theorem sampleTime_cast (p : Ticks) (k : Nat) :
    (sampleTime p k : ℚ) = (measurementShift p).toNat + k * (sampleInterval p).toNat := by
  rw [sampleTime]
  push_cast
  rfl

/-- Half a sample interval is within the three intervals of a unit. -/
theorem measurementShift_lt_unit {p : Ticks} (h : 2 ≤ (sampleInterval p).toNat) :
    (measurementShift p).toNat < 3 * (sampleInterval p).toNat := by
  rw [measurementShift_toNat_eq_half]
  omega

end Sys2Proof.Machine

namespace Sys2Proof.Proofs

open Sys2Proof.Machine

/-- Settles O59: the first sample lags the start of its unit by `meas_shift - j * d`, which is always less than a unit. -/
theorem firstSampleLiesInItsUnitWhileTheDriftIsSmall : Obligations.FirstSampleLiesInItsUnitWhileTheDriftIsSmall := by
  unfold Obligations.FirstSampleLiesInItsUnitWhileTheDriftIsSmall
  intro p U d j hn hd hd0
  have hshift : ((measurementShift p).toNat : ℚ) < 3 * (sampleInterval p).toNat := by
    exact_mod_cast measurementShift_lt_unit hn
  have hlag : (sampleTime p (3 * j) : ℚ) = j * U + ((measurementShift p).toNat - j * d) := by
    rw [sampleTime_cast, hd]
    push_cast
    ring
  have hdrift : 0 ≤ (j : ℚ) * d := by positivity
  rw [hlag]
  constructor
  · rintro ⟨hstart, -⟩
    linarith
  · intro hsmall
    constructor <;> linarith

end Sys2Proof.Proofs
end
